-- ==== Sys2Proof/Word.lean ====
section
/-! DEFINITION. The bit widths the machine's interface uses (rules R7, R9, R54). -/

namespace Sys2Proof

/-- A data byte (R9). -/
abbrev Byte := BitVec 8

/-- A bus address, and an address of the sample memory (R8, R9). -/
abbrev Addr := BitVec 16

/-- One input event packed into a word: `kind[25:24] addr[23:8] data[7:0]` (R54). -/
abbrev EventWord := BitVec 26

/-- One output sample, a 16-bit two's-complement value (R123). -/
abbrev Sample := BitVec 16

end Sys2Proof
end

