-- ==== Sys2Proof/Config.lean ====
section
/-! DEFINITION. The configuration record `Cfg` of rule R6, its constraints, the two builds the spec
lists, and the free value a sample fetch returns (R8, I10). -/

namespace Sys2Proof

/-- The implementation parameters of rule R6, one field per row of its table. They are chosen before
reset and constant during a run (I3), and no part of the block's state (R10): the machine carries the
record it was built with beside the block (`State.cfg`, log 2). -/
structure Cfg where
  /-- `APU_BASE`: bus address of register offset 0 (D1). -/
  apuBase : Addr
  /-- `CLOCK_RATE`: input clocks a second (D9). -/
  clockRate : Nat
  /-- `SAMPLE_RATE`: output samples a second (D10). -/
  sampleRate : Nat
  /-- `LENGTH_TABLE` (D3). -/
  lengthTable : Vector Byte 32
  /-- `DUTY_TABLE[dutySelect][dutyIndex]` (D4). -/
  dutyTable : Vector (Vector Bool 8) 4
  /-- `TRI_TABLE` (D5). -/
  triTable : Vector (BitVec 4) 32
  /-- `NOISE_PERIOD`: input clocks between noise timer ticks (D6). -/
  noisePeriod : Vector Nat 16
  /-- `DMC_RATE`: input clocks between DMC timer ticks (D7). -/
  dmcRate : Vector Nat 16
  /-- `FS_A` to `FS_E`: frame-sequencer offsets in input clocks (D8). -/
  fsA : Nat
  fsB : Nat
  fsC : Nat
  fsD : Nat
  fsE : Nat
  /-- `MIX_W_PULSE`, `MIX_W_TRI`, `MIX_W_NOISE`, `MIX_W_DMC`: mixer weights (D11). -/
  mixWPulse : Nat
  mixWTri : Nat
  mixWNoise : Nat
  mixWDmc : Nat
  /-- `DMC_ADDR_BASE`, `DMC_ADDR_STEP`: sample address = base + step * byte (D24). -/
  dmcAddrBase : Addr
  dmcAddrStep : Nat
  /-- `DMC_LEN_STEP`, `DMC_LEN_BIAS`: sample length = step * byte + bias (D24). -/
  dmcLenStep : Nat
  dmcLenBias : Nat
  /-- `DMC_WRAP_FROM`, `DMC_WRAP_TO`: the one address whose successor is not the next one (D24). -/
  dmcWrapFrom : Addr
  dmcWrapTo : Addr
  /-- `OPEN_BUS`: the byte a read that no rule defines returns (D29). -/
  openBus : Byte
  deriving DecidableEq, Repr

/-- The constraints on `Cfg`. Those of R6, R41, R123 and R124 are the spec's words; the width
constraints (a table entry fits the counter it reloads, an address or a length fits its field, the
whole register map has addresses) are DEDUCED from "Widths are not parameters" (log 3). The model is
defined only for a `Cfg` that meets them (I12). -/
abbrev Cfg.Wf (c : Cfg) : Prop :=
  c.apuBase.toNat + 0x17 < 2 ^ 16
  ∧ 0 < c.sampleRate ∧ c.sampleRate ≤ c.clockRate ∧ c.clockRate < 2 ^ 32
  ∧ (∀ i : Fin 16, c.noisePeriod.get i % 2 = 0 ∧ 2 ≤ c.noisePeriod.get i ∧ c.noisePeriod.get i / 2 ≤ 2 ^ 12)
  ∧ (∀ i : Fin 16, 1 ≤ c.dmcRate.get i ∧ c.dmcRate.get i ≤ 2 ^ 9)
  ∧ 0 < c.fsA ∧ c.fsA < c.fsB ∧ c.fsB < c.fsC ∧ c.fsC < c.fsD ∧ c.fsD < c.fsE ∧ c.fsE < 2 ^ 16
  ∧ 30 * c.mixWPulse + 15 * c.mixWTri + 15 * c.mixWNoise + 127 * c.mixWDmc ≤ 32767
  ∧ c.dmcAddrBase.toNat + 255 * c.dmcAddrStep < 2 ^ 16
  ∧ 1 ≤ c.dmcLenBias ∧ 255 * c.dmcLenStep + c.dmcLenBias < 2 ^ 12

/-- The last address wraps into the bank, and every sample starts in the bank: what keeps a sample inside
it, as R49 and R115 say of the defaults. R6 asks it of no other configuration (log 11). -/
abbrev Cfg.WrapsInBank (c : Cfg) : Prop := c.dmcWrapFrom = 0xFFFF ∧ c.dmcWrapTo.toNat ≤ c.dmcAddrBase.toNat

namespace Config

/-- The default configuration of rule R6 (NTSC). -/
def ntsc : Cfg where
  apuBase := 0x4000
  clockRate := 1789773
  sampleRate := 44100
  lengthTable := #v[10, 254, 20, 2, 40, 4, 80, 6, 160, 8, 60, 10, 14, 12, 26, 14,
    12, 16, 24, 18, 48, 20, 96, 22, 192, 24, 72, 26, 16, 28, 32, 30]
  dutyTable := #v[
    #v[false, false, false, false, false, false, false, true],
    #v[false, false, false, false, false, false, true, true],
    #v[false, false, false, false, true, true, true, true],
    #v[true, true, true, true, true, true, false, false]]
  triTable := #v[15, 14, 13, 12, 11, 10, 9, 8, 7, 6, 5, 4, 3, 2, 1, 0,
    0, 1, 2, 3, 4, 5, 6, 7, 8, 9, 10, 11, 12, 13, 14, 15]
  noisePeriod := #v[4, 8, 16, 32, 64, 96, 128, 160, 202, 254, 380, 508, 762, 1016, 2034, 4068]
  dmcRate := #v[428, 380, 340, 320, 286, 254, 226, 214, 190, 160, 142, 128, 106, 84, 72, 54]
  fsA := 7457
  fsB := 14913
  fsC := 22371
  fsD := 29829
  fsE := 37281
  mixWPulse := 246
  mixWTri := 279
  mixWNoise := 162
  mixWDmc := 110
  dmcAddrBase := 0xC000
  dmcAddrStep := 64
  dmcLenStep := 16
  dmcLenBias := 1
  dmcWrapFrom := 0xFFFF
  dmcWrapTo := 0x8000
  openBus := 0x00

/-- The PAL values rule R6 lists beside the default ones; every other parameter as by default. -/
def pal : Cfg :=
  { ntsc with
    clockRate := 1662607
    noisePeriod := #v[4, 8, 14, 30, 60, 88, 118, 148, 188, 236, 354, 472, 708, 944, 1890, 3778]
    dmcRate := #v[398, 354, 316, 298, 276, 236, 210, 198, 176, 148, 132, 118, 98, 78, 66, 50]
    fsA := 8313
    fsB := 16627
    fsC := 24939
    fsD := 33253
    fsE := 41565 }

/-- The configuration of the machine `State.reset` describes, and the one whose base address the words
of the opcode table are written for: the default of R6. DESIGN CHOICE (log 2): how a build selects NTSC
or PAL is not in the source (I3). A machine of any other configuration is `State.resetWith`. -/
abbrev cfg : Cfg := ntsc

/-- The byte the sample memory answers where nothing else fixes it: the `n`-th `MemRead` of the run at
address `a`. A FREE VALUE (R8, I10, D32: any value, supplied as a function of the address and possibly
of the call): it has no body, so nothing can be proved of its value (log 4). -/
opaque oracleByte : Nat → Addr → Byte

end Config

end Sys2Proof
end

