-- ==== Sys2Proof/Syntax.lean ====
section
/-! DEFINITION. The input events as syntax: one constructor per row of spec/opcode_table.json. -/

namespace Sys2Proof

/-- An input event (R9, R66). A `WRITE` row carries the fields of its register format (R56): a bit the
format shows as `-` is no field, since it is ignored (R62). An unmapped access carries its address. -/
inductive Instr where
  /-- `WR_P1_CTRL` (R86), format `F_ENVD`. -/
  | wrP1Ctrl (duty : BitVec 2) (loopHalt : Bool) (constant : Bool) (volume : BitVec 4)
  /-- `WR_P1_SWEEP` (R87), format `F_SWEEP`. -/
  | wrP1Sweep (enabled : Bool) (period : BitVec 3) (negate : Bool) (shift : BitVec 3)
  /-- `WR_P1_LO` (R88), format `F_LO`. -/
  | wrP1Lo (low : Byte)
  /-- `WR_P1_HI` (R89), format `F_HI`. -/
  | wrP1Hi (lengthIndex : BitVec 5) (high : BitVec 3)
  /-- `WR_P2_CTRL` (R86), format `F_ENVD`. -/
  | wrP2Ctrl (duty : BitVec 2) (loopHalt : Bool) (constant : Bool) (volume : BitVec 4)
  /-- `WR_P2_SWEEP` (R87), format `F_SWEEP`. -/
  | wrP2Sweep (enabled : Bool) (period : BitVec 3) (negate : Bool) (shift : BitVec 3)
  /-- `WR_P2_LO` (R88), format `F_LO`. -/
  | wrP2Lo (low : Byte)
  /-- `WR_P2_HI` (R89), format `F_HI`. -/
  | wrP2Hi (lengthIndex : BitVec 5) (high : BitVec 3)
  /-- `WR_TRI_CTRL` (R93), format `F_LIN`. -/
  | wrTriCtrl (halt : Bool) (reload : BitVec 7)
  /-- `WR_TRI_UNUSED` (R59), format `F_NONE`. -/
  | wrTriUnused
  /-- `WR_TRI_LO` (R94), format `F_LO`. -/
  | wrTriLo (low : Byte)
  /-- `WR_TRI_HI` (R95), format `F_HI`. -/
  | wrTriHi (lengthIndex : BitVec 5) (high : BitVec 3)
  /-- `WR_NOI_ENV` (R99), format `F_ENV`. -/
  | wrNoiEnv (loopHalt : Bool) (constant : Bool) (volume : BitVec 4)
  /-- `WR_NOI_UNUSED` (R59), format `F_NONE`. -/
  | wrNoiUnused
  /-- `WR_NOI_PERIOD` (R100), format `F_NPER`. -/
  | wrNoiPeriod (mode : Bool) (periodIndex : BitVec 4)
  /-- `WR_NOI_LEN` (R101), format `F_LEN`. -/
  | wrNoiLen (lengthIndex : BitVec 5)
  /-- `WR_DMC_CTRL` (R106), format `F_DCTL`. -/
  | wrDmcCtrl (irqEnable : Bool) (loop : Bool) (rateIndex : BitVec 4)
  /-- `WR_DMC_LOAD` (R107), format `F_DLOAD`. -/
  | wrDmcLoad (level : BitVec 7)
  /-- `WR_DMC_ADDR` (R108), format `F_BYTE`. -/
  | wrDmcAddr (value : Byte)
  /-- `WR_DMC_LEN` (R109), format `F_BYTE`. -/
  | wrDmcLen (value : Byte)
  /-- `WR_STATUS` (R127), format `F_STAT`: the enables of pulse 1, pulse 2, triangle, noise, DMC
  (data bits 0 to 4). -/
  | wrStatus (p1 : Bool) (p2 : Bool) (tri : Bool) (noise : Bool) (dmc : Bool)
  /-- `RD_STATUS` (R128). -/
  | rdStatus
  /-- `WR_FRAME` (R116), format `F_FRAME`: `fiveStep` is data bit 7. -/
  | wrFrame (fiveStep : Bool) (irqInhibit : Bool)
  /-- `WR_UNMAPPED` (R59): a write at an address no register has. -/
  | wrUnmapped (addr : Addr)
  /-- `RD_UNMAPPED` (R60): a read at any address but the status register's. -/
  | rdUnmapped (addr : Addr)
  /-- `CLK` (R121). -/
  | clk
  /-- `RESET` (R142). -/
  | reset
  deriving DecidableEq, Repr

end Sys2Proof
end

