-- ==== Sys2Proof/WellFormed.lean ====
section
/-! DEFINITION. Which terms of `Instr` are events: the address of an unmapped access is unmapped. -/

namespace Sys2Proof

/-- The offsets a `WRITE` finds a register at (R19, R47). -/
def writeOffsets : List Addr :=
  [0x00, 0x01, 0x02, 0x03, 0x04, 0x05, 0x06, 0x07, 0x08, 0x09, 0x0A, 0x0B,
   0x0C, 0x0D, 0x0E, 0x0F, 0x10, 0x11, 0x12, 0x13, 0x15, 0x17]

/-- The offset of the status register, the only one a `READ` finds a register at (R35, R48). -/
def statusOffset : Addr := 0x15

/-- An event is well formed when the row it stands for applies to its word (R55): an unmapped write
names an address no register has (R48), an unmapped read any address but the status register's (R60).
Every value of every register field is legal (R62). -/
def Instr.wf (c : Cfg) : Instr → Bool
  | .wrP1Ctrl _ _ _ _ => true
  | .wrP1Sweep _ _ _ _ => true
  | .wrP1Lo _ => true
  | .wrP1Hi _ _ => true
  | .wrP2Ctrl _ _ _ _ => true
  | .wrP2Sweep _ _ _ _ => true
  | .wrP2Lo _ => true
  | .wrP2Hi _ _ => true
  | .wrTriCtrl _ _ => true
  | .wrTriUnused => true
  | .wrTriLo _ => true
  | .wrTriHi _ _ => true
  | .wrNoiEnv _ _ _ => true
  | .wrNoiUnused => true
  | .wrNoiPeriod _ _ => true
  | .wrNoiLen _ => true
  | .wrDmcCtrl _ _ _ => true
  | .wrDmcLoad _ => true
  | .wrDmcAddr _ => true
  | .wrDmcLen _ => true
  | .wrStatus _ _ _ _ _ => true
  | .rdStatus => true
  | .wrFrame _ _ => true
  | .wrUnmapped addr => !writeOffsets.contains (addr - c.apuBase)
  | .rdUnmapped addr => addr - c.apuBase != statusOffset
  | .clk => true
  | .reset => true

end Sys2Proof
end

