-- ==== Sys2Proof/Decode.lean ====
section
/-! DEFINITION. From event words to events and back (rules R54 to R66), the opcode map of R66 as a
table, and the transport of a word as bytes. -/

namespace Sys2Proof

/-! ### The fields of an event word (R54) -/

/-- `kind`, bits 25:24: 0 `CLK`, 1 `READ`, 2 `WRITE`, 3 `RESET`. -/
def EventWord.kind (e : EventWord) : BitVec 2 := e.extractLsb' 24 2

/-- `addr`, bits 23:8. -/
def EventWord.addr (e : EventWord) : Addr := e.extractLsb' 8 16

/-- `data`, bits 7:0. -/
def EventWord.data (e : EventWord) : Byte := e.extractLsb' 0 8

/-- The word with the given fields. -/
def eventWord (kind : BitVec 2) (addr : Addr) (data : Byte) : EventWord := kind ++ addr ++ data

/-- The word of `WRITE(addr, data)`. -/
def writeWord (addr : Addr) (data : Byte) : EventWord := eventWord 2 addr data

/-- The word of `READ(addr)`; its unused data field is written as zero (R64). -/
def readWord (addr : Addr) : EventWord := eventWord 1 addr 0

/-! ### Decoding -/

/-- The event of `WRITE(addr, d)`: the register at `addr - APU_BASE` (R66, column `match`) and the
fields of its format (R56). An address no register has is `WR_UNMAPPED` (R59). -/
def decodeWrite (c : Cfg) (addr : Addr) (d : Byte) : Instr :=
  match (addr - c.apuBase).toNat with
  | 0x00 => .wrP1Ctrl (d.extractLsb' 6 2) (d.getLsbD 5) (d.getLsbD 4) (d.extractLsb' 0 4)
  | 0x01 => .wrP1Sweep (d.getLsbD 7) (d.extractLsb' 4 3) (d.getLsbD 3) (d.extractLsb' 0 3)
  | 0x02 => .wrP1Lo d
  | 0x03 => .wrP1Hi (d.extractLsb' 3 5) (d.extractLsb' 0 3)
  | 0x04 => .wrP2Ctrl (d.extractLsb' 6 2) (d.getLsbD 5) (d.getLsbD 4) (d.extractLsb' 0 4)
  | 0x05 => .wrP2Sweep (d.getLsbD 7) (d.extractLsb' 4 3) (d.getLsbD 3) (d.extractLsb' 0 3)
  | 0x06 => .wrP2Lo d
  | 0x07 => .wrP2Hi (d.extractLsb' 3 5) (d.extractLsb' 0 3)
  | 0x08 => .wrTriCtrl (d.getLsbD 7) (d.extractLsb' 0 7)
  | 0x09 => .wrTriUnused
  | 0x0A => .wrTriLo d
  | 0x0B => .wrTriHi (d.extractLsb' 3 5) (d.extractLsb' 0 3)
  | 0x0C => .wrNoiEnv (d.getLsbD 5) (d.getLsbD 4) (d.extractLsb' 0 4)
  | 0x0D => .wrNoiUnused
  | 0x0E => .wrNoiPeriod (d.getLsbD 7) (d.extractLsb' 0 4)
  | 0x0F => .wrNoiLen (d.extractLsb' 3 5)
  | 0x10 => .wrDmcCtrl (d.getLsbD 7) (d.getLsbD 6) (d.extractLsb' 0 4)
  | 0x11 => .wrDmcLoad (d.extractLsb' 0 7)
  | 0x12 => .wrDmcAddr d
  | 0x13 => .wrDmcLen d
  | 0x15 => .wrStatus (d.getLsbD 0) (d.getLsbD 1) (d.getLsbD 2) (d.getLsbD 3) (d.getLsbD 4)
  | 0x17 => .wrFrame (d.getLsbD 7) (d.getLsbD 6)
  | _ => .wrUnmapped addr

/-- The event of `READ(addr)`: the status register or nothing (R60). -/
def decodeRead (c : Cfg) (addr : Addr) : Instr :=
  if addr - c.apuBase = statusOffset then .rdStatus else .rdUnmapped addr

/-- The event an event word stands for; total, since every word selects a row (R55). -/
def decodeEvent (c : Cfg) (e : EventWord) : Instr :=
  match e.kind.toNat with
  | 0 => .clk
  | 1 => decodeRead c e.addr
  | 2 => decodeWrite c e.addr e.data
  | _ => .reset

/-! ### Encoding -/

/-- A one-bit field. -/
def flag (b : Bool) : BitVec 1 := BitVec.ofBool b

/-- The event word of an event (R54, R56, R66). Ignored bits and unused fields are written as zero
(R64; log 6). -/
def encode (c : Cfg) : Instr → EventWord
  | .wrP1Ctrl duty l k v => writeWord (c.apuBase + 0x00) (duty ++ flag l ++ flag k ++ v)
  | .wrP1Sweep e p n s => writeWord (c.apuBase + 0x01) (flag e ++ p ++ flag n ++ s)
  | .wrP1Lo low => writeWord (c.apuBase + 0x02) low
  | .wrP1Hi idx high => writeWord (c.apuBase + 0x03) (idx ++ high)
  | .wrP2Ctrl duty l k v => writeWord (c.apuBase + 0x04) (duty ++ flag l ++ flag k ++ v)
  | .wrP2Sweep e p n s => writeWord (c.apuBase + 0x05) (flag e ++ p ++ flag n ++ s)
  | .wrP2Lo low => writeWord (c.apuBase + 0x06) low
  | .wrP2Hi idx high => writeWord (c.apuBase + 0x07) (idx ++ high)
  | .wrTriCtrl h r => writeWord (c.apuBase + 0x08) (flag h ++ r)
  | .wrTriUnused => writeWord (c.apuBase + 0x09) 0
  | .wrTriLo low => writeWord (c.apuBase + 0x0A) low
  | .wrTriHi idx high => writeWord (c.apuBase + 0x0B) (idx ++ high)
  | .wrNoiEnv l k v => writeWord (c.apuBase + 0x0C) (0#2 ++ flag l ++ flag k ++ v)
  | .wrNoiUnused => writeWord (c.apuBase + 0x0D) 0
  | .wrNoiPeriod m p => writeWord (c.apuBase + 0x0E) (flag m ++ 0#3 ++ p)
  | .wrNoiLen idx => writeWord (c.apuBase + 0x0F) (idx ++ 0#3)
  | .wrDmcCtrl i l r => writeWord (c.apuBase + 0x10) (flag i ++ flag l ++ 0#2 ++ r)
  | .wrDmcLoad level => writeWord (c.apuBase + 0x11) (0#1 ++ level)
  | .wrDmcAddr value => writeWord (c.apuBase + 0x12) value
  | .wrDmcLen value => writeWord (c.apuBase + 0x13) value
  | .wrStatus p1 p2 t n d =>
      writeWord (c.apuBase + 0x15) (0#3 ++ flag d ++ flag n ++ flag t ++ flag p2 ++ flag p1)
  | .rdStatus => readWord (c.apuBase + statusOffset)
  | .wrFrame m i => writeWord (c.apuBase + 0x17) (flag m ++ flag i ++ 0#6)
  | .wrUnmapped addr => writeWord addr 0
  | .rdUnmapped addr => readWord addr
  | .clk => eventWord 0 0 0
  | .reset => eventWord 3 0 0

/-! ### The opcode map as a table (R66) -/

/-- The mnemonic of an event's row. -/
def Instr.mnemonic : Instr → String
  | .wrP1Ctrl _ _ _ _ => "WR_P1_CTRL"
  | .wrP1Sweep _ _ _ _ => "WR_P1_SWEEP"
  | .wrP1Lo _ => "WR_P1_LO"
  | .wrP1Hi _ _ => "WR_P1_HI"
  | .wrP2Ctrl _ _ _ _ => "WR_P2_CTRL"
  | .wrP2Sweep _ _ _ _ => "WR_P2_SWEEP"
  | .wrP2Lo _ => "WR_P2_LO"
  | .wrP2Hi _ _ => "WR_P2_HI"
  | .wrTriCtrl _ _ => "WR_TRI_CTRL"
  | .wrTriUnused => "WR_TRI_UNUSED"
  | .wrTriLo _ => "WR_TRI_LO"
  | .wrTriHi _ _ => "WR_TRI_HI"
  | .wrNoiEnv _ _ _ => "WR_NOI_ENV"
  | .wrNoiUnused => "WR_NOI_UNUSED"
  | .wrNoiPeriod _ _ => "WR_NOI_PERIOD"
  | .wrNoiLen _ => "WR_NOI_LEN"
  | .wrDmcCtrl _ _ _ => "WR_DMC_CTRL"
  | .wrDmcLoad _ => "WR_DMC_LOAD"
  | .wrDmcAddr _ => "WR_DMC_ADDR"
  | .wrDmcLen _ => "WR_DMC_LEN"
  | .wrStatus _ _ _ _ _ => "WR_STATUS"
  | .rdStatus => "RD_STATUS"
  | .wrFrame _ _ => "WR_FRAME"
  | .wrUnmapped _ => "WR_UNMAPPED"
  | .rdUnmapped _ => "RD_UNMAPPED"
  | .clk => "CLK"
  | .reset => "RESET"

/-- A row of the opcode map: it applies to a word `e` when `e & mask = pattern` (R55). -/
structure OpcodeRow where
  mnemonic : String
  pattern : EventWord
  mask : EventWord
  deriving DecidableEq, Repr

/-- Does the row apply to the word? -/
def OpcodeRow.applies (r : OpcodeRow) (e : EventWord) : Bool := e &&& r.mask == r.pattern

/-- A full-address row for another base: `(APU_BASE - 0x4000) << 8` is added to its pattern (R55). -/
def OpcodeRow.rebase (c : Cfg) (r : OpcodeRow) : OpcodeRow :=
  { r with pattern := r.pattern + ((c.apuBase.setWidth 26 - 0x4000) <<< 8) }

/-- The rows of R66 with `mask = 0x3FFFF00` (kind and full address), for `APU_BASE = 0x4000`. -/
def fullAddressRows : List OpcodeRow := [
  ⟨"WR_P1_CTRL", 0x2400000, 0x3FFFF00⟩, ⟨"WR_P1_SWEEP", 0x2400100, 0x3FFFF00⟩,
  ⟨"WR_P1_LO", 0x2400200, 0x3FFFF00⟩, ⟨"WR_P1_HI", 0x2400300, 0x3FFFF00⟩,
  ⟨"WR_P2_CTRL", 0x2400400, 0x3FFFF00⟩, ⟨"WR_P2_SWEEP", 0x2400500, 0x3FFFF00⟩,
  ⟨"WR_P2_LO", 0x2400600, 0x3FFFF00⟩, ⟨"WR_P2_HI", 0x2400700, 0x3FFFF00⟩,
  ⟨"WR_TRI_CTRL", 0x2400800, 0x3FFFF00⟩, ⟨"WR_TRI_UNUSED", 0x2400900, 0x3FFFF00⟩,
  ⟨"WR_TRI_LO", 0x2400A00, 0x3FFFF00⟩, ⟨"WR_TRI_HI", 0x2400B00, 0x3FFFF00⟩,
  ⟨"WR_NOI_ENV", 0x2400C00, 0x3FFFF00⟩, ⟨"WR_NOI_UNUSED", 0x2400D00, 0x3FFFF00⟩,
  ⟨"WR_NOI_PERIOD", 0x2400E00, 0x3FFFF00⟩, ⟨"WR_NOI_LEN", 0x2400F00, 0x3FFFF00⟩,
  ⟨"WR_DMC_CTRL", 0x2401000, 0x3FFFF00⟩, ⟨"WR_DMC_LOAD", 0x2401100, 0x3FFFF00⟩,
  ⟨"WR_DMC_ADDR", 0x2401200, 0x3FFFF00⟩, ⟨"WR_DMC_LEN", 0x2401300, 0x3FFFF00⟩,
  ⟨"WR_STATUS", 0x2401500, 0x3FFFF00⟩, ⟨"RD_STATUS", 0x1401500, 0x3FFFF00⟩,
  ⟨"WR_FRAME", 0x2401700, 0x3FFFF00⟩]

/-- The rows of R66 with `mask = 0x3000000` (kind only), which apply when no full-address row does. -/
def kindRows : List OpcodeRow := [
  ⟨"WR_UNMAPPED", 0x2000000, 0x3000000⟩, ⟨"RD_UNMAPPED", 0x1000000, 0x3000000⟩,
  ⟨"CLK", 0x0000000, 0x3000000⟩, ⟨"RESET", 0x3000000, 0x3000000⟩]

/-- The rows of the map that apply to a word, the full-address ones first (R55's priority). -/
def applicableRows (c : Cfg) (e : EventWord) : List OpcodeRow :=
  (fullAddressRows.map (·.rebase c) ++ kindRows).filter (·.applies e)

/-! ### Transport as bytes

The spec knows the word only. The model carries one word in four bytes, the least significant first,
the six bits above the word zero: DESIGN CHOICE (log 7). -/

/-- Why four bytes are no event word. -/
inductive DecodeError where
  /-- Fewer than four bytes are left. -/
  | truncated
  /-- A bit above bit 25 is set, so the bytes hold no 26-bit word. -/
  | notAnEventWord
  deriving DecidableEq, Repr

/-- The event at the head of a list of bytes, and the bytes after it. -/
def decode (c : Cfg) : List Byte → Except DecodeError (Instr × List Byte)
  | b0 :: b1 :: b2 :: b3 :: rest =>
    if b3.extractLsb' 2 6 = 0#6 then
      .ok (decodeEvent c (b3.extractLsb' 0 2 ++ b2 ++ b1 ++ b0), rest)
    else .error .notAnEventWord
  | _ => .error .truncated

/-- The first `k` bytes of a number, the least significant first. -/
def bytesOf : (k : Nat) → Nat → List Byte
  | 0, _ => []
  | k + 1, w => BitVec.ofNat 8 w :: bytesOf k (w / 256)

/-- The number a table word is: its low `nbits` bits, the bits above them zero. -/
def tableWord (nbits w : Nat) : Nat := w % 2 ^ nbits

/-- The event the decoder reads from the word `w` of an opcode-table row (nothing where it refuses). The
table's words are written for the default base address (R66; log 2). -/
def decodeTableWord (nbits w : Nat) : Option Instr :=
  if tableWord nbits w < 2 ^ 32 then
    match decode Config.cfg (bytesOf 4 (tableWord nbits w)) with
    | .ok (i, _) => some i
    | .error _ => none
  else none

end Sys2Proof
end

