-- ==== Sys2Proof/Machine/State.lean ====
section
/-! DEFINITION. The state of the machine as plain data (rules R10 to R17), its reset value (R40), and
the reasons a step could stop. -/

namespace Sys2Proof.Machine

/-- Envelope unit (R11, R13): `env.*` of a pulse channel or the noise channel. -/
structure Envelope where
  loopFlag : Bool
  constantFlag : Bool
  volume : BitVec 4
  decayCounter : BitVec 4
  divider : BitVec 4
  deriving DecidableEq, Repr

/-- Sweep unit of a pulse channel (R11): `sweep.*`. -/
structure Sweep where
  enabled : Bool
  period : BitVec 3
  negate : Bool
  shiftCount : BitVec 3
  divider : BitVec 3
  reloadPending : Bool
  deriving DecidableEq, Repr

/-- Length counter (R11 to R13): `length.*`. -/
structure LengthCounter where
  value : BitVec 8
  haltFlag : Bool
  deriving DecidableEq, Repr

/-- Pulse channel (R11). -/
structure Pulse where
  timerPeriod : BitVec 11
  timerCounter : BitVec 11
  dutyIndex : BitVec 3
  dutySelect : BitVec 2
  env : Envelope
  sweep : Sweep
  length : LengthCounter
  deriving DecidableEq, Repr

/-- Triangle channel (R12). `linearControlFlag` is the linear counter's reload flag. -/
structure Triangle where
  timerPeriod : BitVec 11
  timerCounter : BitVec 11
  sequenceIndex : BitVec 5
  linearCounterReload : BitVec 7
  linearCounter : BitVec 7
  linearControlFlag : Bool
  length : LengthCounter
  deriving DecidableEq, Repr

/-- Noise channel (R13). -/
structure Noise where
  periodIndex : BitVec 4
  timerCounter : BitVec 12
  modeFlag : Bool
  shiftRegister : BitVec 15
  env : Envelope
  length : LengthCounter
  deriving DecidableEq, Repr

/-- Delta-modulation channel (R15). -/
structure Dmc where
  irqEnable : Bool
  loopFlag : Bool
  rateIndex : BitVec 4
  outputLevel : BitVec 7
  sampleAddress : Addr
  sampleLength : BitVec 12
  currentAddress : Addr
  bytesRemaining : BitVec 12
  shiftRegister : Byte
  bitsRemaining : BitVec 4
  silenceFlag : Bool
  timerCounter : BitVec 9
  irqFlag : Bool
  deriving DecidableEq, Repr

/-- `frame.mode` (R16): 0 is 4-step, 1 is 5-step. -/
inductive FrameMode where
  | fourStep
  | fiveStep
  deriving DecidableEq, Repr

/-- Frame sequencer (R16). -/
structure FrameSequencer where
  mode : FrameMode
  cycleCounter : BitVec 16
  irqInhibit : Bool
  irqFlag : Bool
  deriving DecidableEq, Repr

/-- `chanEnable[0..4]` (R17): pulse 1, pulse 2, triangle, noise, DMC. -/
structure ChanEnable where
  p1 : Bool
  p2 : Bool
  tri : Bool
  noise : Bool
  dmc : Bool
  deriving DecidableEq, Repr

/-- The state of the block: exactly the fields of rules R11 to R17 (R10). `phase` is false on an even
clock and true on an odd one. -/
structure Apu where
  p1 : Pulse
  p2 : Pulse
  tri : Triangle
  noise : Noise
  dmc : Dmc
  frame : FrameSequencer
  chanEnable : ChanEnable
  phase : Bool
  sampleAcc : BitVec 32
  deriving DecidableEq, Repr

/-- What the last event put on the block's output ports (R9): the byte a `READ` returned, the sample a
`CLK` emitted (`sample_valid` is whether there is one, R125), the address a `MemRead` presented. The
interrupt line is a function of the state (R133) and no field. A port not in use holds no value (log 9). -/
structure Outputs where
  readByte : Option Byte
  sample : Option Sample
  memAddr : Option Addr
  deriving DecidableEq, Repr

/-- An event that puts nothing on any port. -/
def Outputs.none : Outputs := ⟨.none, .none, .none⟩

/-- The machine: the block, and the model's own fields for what surrounds it: the configuration it was
built with, which no event changes (R6, R10, I3; log 2); the outputs of the last event, the caller's
events still to be applied (oldest first), the bytes of the sample memory that the collaborator has
fixed, and the number of `MemRead`s made so far, which the free value of an unfixed byte is applied to
(log 5). -/
structure State where
  cfg : Cfg
  apu : Apu
  out : Outputs
  events : List EventWord
  mem : List Host.Cell
  memReads : Nat
  deriving DecidableEq, Repr

/-- Why the machine would stop with a fault. There is no reason: the block raises no exception and
every event completes (R130), so this type has no member. -/
inductive Fault where
  deriving DecidableEq, Repr

/-- Why an event would be refused. -/
inductive Refusal where
  /-- `exec` raises it for a row of the opcode table that has no meaning yet, named by its mnemonic.
  Safe: the machine stops where the hardware goes on. No arm of `exec` raises it now. -/
  | notModelled (mnemonic : String)
  deriving DecidableEq, Repr

/-- Reset values (R40; all but the noise seed are the spec's decision D28, D15, D10: log 1). -/
def Envelope.reset : Envelope := ⟨false, false, 0, 0, 0⟩

def Sweep.reset : Sweep := ⟨false, 0, false, 0, 0, false⟩

def LengthCounter.reset : LengthCounter := ⟨0, false⟩

def Pulse.reset : Pulse := ⟨0, 0, 0, 0, .reset, .reset, .reset⟩

def Triangle.reset : Triangle := ⟨0, 0, 0, 0, 0, false, .reset⟩

/-- The shift register is "seeded to 1 at power-on". -/
def Noise.reset : Noise := ⟨0, 0, false, 1, .reset, .reset⟩

/-- The sample address and length are those a register byte of 0 gives, and nothing is playing. -/
def Dmc.reset (c : Cfg) : Dmc where
  irqEnable := false
  loopFlag := false
  rateIndex := 0
  outputLevel := 0
  sampleAddress := c.dmcAddrBase
  sampleLength := BitVec.ofNat 12 c.dmcLenBias
  currentAddress := 0
  bytesRemaining := 0
  shiftRegister := 0
  bitsRemaining := 0
  silenceFlag := true
  timerCounter := 0
  irqFlag := false

def FrameSequencer.reset : FrameSequencer := ⟨.fourStep, 0, false, false⟩

def ChanEnable.reset : ChanEnable := ⟨false, false, false, false, false⟩

/-- The block after `RESET` (R40). -/
def Apu.reset (c : Cfg) : Apu :=
  ⟨.reset, .reset, .reset, .reset, .reset c, .reset, .reset, false, 0⟩

/-- A machine of a configuration right after reset: the block as R40 says, no output, no event pending,
no byte of the sample memory fixed. -/
def State.resetWith (c : Cfg) : State := ⟨c, .reset c, .none, [], [], 0⟩

/-- The machine right after reset, of the default configuration of R6 (log 2). -/
def State.reset : State := .resetWith Config.cfg

end Sys2Proof.Machine
end

