-- ==== Sys2Proof/Machine/Ops.lean ====
section
/-! DEFINITION. The named operations over the state: updates of its parts, the sample memory, and the
units several channels share (timer, length counter, envelope). The block takes no exception (R130,
R135), so there is no exception entry or return; what it has instead, setting and clearing the two
interrupt flags, stands in Flags.lean. -/

namespace Sys2Proof.Machine

/-! ### Updates of parts -/

def Apu.withP1 (a : Apu) (p : Pulse) : Apu := { a with p1 := p }

def Apu.withP2 (a : Apu) (p : Pulse) : Apu := { a with p2 := p }

def Apu.withTri (a : Apu) (t : Triangle) : Apu := { a with tri := t }

def Apu.withNoise (a : Apu) (n : Noise) : Apu := { a with noise := n }

def Apu.withDmc (a : Apu) (d : Dmc) : Apu := { a with dmc := d }

def Apu.withFrame (a : Apu) (f : FrameSequencer) : Apu := { a with frame := f }

def Apu.withChanEnable (a : Apu) (e : ChanEnable) : Apu := { a with chanEnable := e }

def Apu.withPhase (a : Apu) (b : Bool) : Apu := { a with phase := b }

def Apu.withSampleAcc (a : Apu) (n : BitVec 32) : Apu := { a with sampleAcc := n }

/-- Change the block, leave everything around it. -/
def State.withApu (s : State) (a : Apu) : State := { s with apu := a }

/-- An event that changes the block and puts nothing on a port: a register write, `RESET`. -/
def State.update (s : State) (a : Apu) : State := { s with apu := a, out := Outputs.none }

/-- A `READ` that changes the block as given and returns a byte (R9). -/
def State.answer (s : State) (a : Apu) (b : Byte) : State :=
  { s with apu := a, out := { Outputs.none with readByte := some b } }

/-- Emit a sample (R125). -/
def State.emit (s : State) (v : Sample) : State := { s with out := { s.out with sample := some v } }

/-! ### The sample memory (R8, R49)

The bytes the collaborator has fixed, as cells with strictly rising addresses in the 16-bit space. An
address with no cell reads as the free value `Config.oracleByte` (log 4), so no cell equals what its
address would read as without it. The block never writes it (R42). -/

/-- The byte of the cell at an address, if there is one. -/
def Memory.lookup : List Host.Cell → Nat → Option Byte
  | [], _ => none
  | (b, v) :: rest, a => if a = b then some v else Memory.lookup rest a

/-- The canonical form: addresses strictly rise and lie in the 16-bit space. -/
def Memory.wf : List Host.Cell → Bool
  | [] => true
  | [(a, _)] => decide (a < 2 ^ 16)
  | (a, _) :: (b, v) :: rest => decide (a < b) && Memory.wf ((b, v) :: rest)

/-- The collaborator fixes the byte at an address. No event does this: it is how a run is supplied
with a sample. -/
def Memory.put : List Host.Cell → Nat → Byte → List Host.Cell
  | [], a, v => [(a, v)]
  | (b, w) :: rest, a, v =>
    if a < b then (a, v) :: (b, w) :: rest
    else if a = b then (a, v) :: rest
    else (b, w) :: Memory.put rest a v

/-- The state with one more byte of the sample memory fixed by the collaborator. -/
def State.withSampleByte (s : State) (a : Addr) (v : Byte) : State :=
  { s with mem := Memory.put s.mem a.toNat v }

/-- The byte `MemRead(a, 1)` returns now (R8). -/
def State.memByte (s : State) (a : Addr) : Byte :=
  match Memory.lookup s.mem a.toNat with
  | some v => v
  | none => Config.oracleByte s.memReads a

/-- What the outside sees of `MemRead(a, 1)`: the address presented, and one read more. -/
def State.presentAddr (s : State) (a : Addr) : State :=
  { s with out := { s.out with memAddr := some a }, memReads := s.memReads + 1 }

/-! ### Timer (R76) -/

/-- `TimerClock(counter, reload) -> (counter', tick)`. -/
def timerClock {w : Nat} (counter reload : BitVec w) : BitVec w × Bool :=
  if counter = 0#w then (reload, true) else (counter - 1#w, false)

/-! ### Length counter (R72, R73) -/

/-- `LenLoad(ch, idx)`: only an enabled channel loads (D13). -/
def LengthCounter.load (c : Cfg) (l : LengthCounter) (enabled : Bool) (idx : BitVec 5) : LengthCounter :=
  if enabled then { l with value := c.lengthTable.get idx.toFin } else l

/-- `LenClock(ch)`: the counter stops at 0 and stands while halted. -/
def LengthCounter.clock (l : LengthCounter) : LengthCounter :=
  if l.haltFlag = false ∧ l.value ≠ 0 then { l with value := l.value - 1 } else l

/-- The effect of the channel's enable bit on its length counter (R127): 0 forces it to zero. -/
def LengthCounter.gate (l : LengthCounter) (enable : Bool) : LengthCounter :=
  if enable then l else { l with value := 0 }

/-! ### Envelope (R77 to R79) -/

/-- `EnvStart(e)`: at once, inside the write. -/
def Envelope.start (e : Envelope) : Envelope :=
  { e with decayCounter := 15, divider := e.volume }

/-- Store the parameters of a duty/envelope or noise envelope register and start the envelope (R86,
R99): the volume reloaded is the one just stored. -/
def Envelope.write (e : Envelope) (loop constant : Bool) (volume : BitVec 4) : Envelope :=
  { e with loopFlag := loop, constantFlag := constant, volume := volume }.start

/-- The decay step of `EnvClock(e)`: rest at 0 unless the loop flag wraps it to 15 (D17). -/
def Envelope.decay (e : Envelope) : BitVec 4 :=
  if e.decayCounter ≠ 0 then e.decayCounter - 1 else if e.loopFlag then 15 else 0

/-- `EnvClock(e)`. -/
def Envelope.clock (e : Envelope) : Envelope :=
  if e.divider = 0 then { e with divider := e.volume, decayCounter := e.decay }
  else { e with divider := e.divider - 1 }

/-- `EnvOut(e)`. -/
def Envelope.output (e : Envelope) : BitVec 4 :=
  if e.constantFlag then e.volume else e.decayCounter

end Sys2Proof.Machine
end

