-- ==== Sys2Proof/Machine/Bus.lean ====
section
/-! DEFINITION. Accesses that find no register: the unused slots and the unmapped addresses (R59, R60). -/

namespace Sys2Proof.Machine

/-- `WR_TRI_UNUSED` (R59): no effect. -/
def execWrTriUnused (s : State) : Host.Outcome State Fault Refusal := .next (s.update s.apu)

/-- `WR_NOI_UNUSED` (R59): no effect. -/
def execWrNoiUnused (s : State) : Host.Outcome State Fault Refusal := .next (s.update s.apu)

/-- `WR_UNMAPPED` (R59): "ignored (not part of the mapped range)". -/
def execWrUnmapped (_addr : Addr) (s : State) : Host.Outcome State Fault Refusal := .next (s.update s.apu)

/-- `RD_UNMAPPED` (R60): the byte `OPEN_BUS`, no state change. -/
def execRdUnmapped (_addr : Addr) (s : State) : Host.Outcome State Fault Refusal :=
  .next (s.answer s.apu s.cfg.openBus)

end Sys2Proof.Machine
end

