-- ==== Sys2Proof/Machine/Operands.lean ====
section
/-! DEFINITION. Operand assembly: the split timer period (R57), table-indexed operands (R58), scaled
operands (R61), the successor of a sample address (R115). -/

namespace Sys2Proof.Machine

/-- `F_LO` replaces bits 7:0 of a timer period and keeps bits 10:8 (R57). -/
def periodWithLow (period : BitVec 11) (low : Byte) : BitVec 11 := period.extractLsb' 8 3 ++ low

/-- `F_HI` replaces bits 10:8 of a timer period and keeps bits 7:0 (R57). -/
def periodWithHigh (period : BitVec 11) (high : BitVec 3) : BitVec 11 := high ++ period.extractLsb' 0 8

/-- Is the slot `index` of duty pattern `select` high (R58 (d), R91)? -/
def dutyBit (c : Cfg) (select : BitVec 2) (index : BitVec 3) : Bool :=
  (c.dutyTable.get select.toFin).get index.toFin

/-- The reload value of the noise timer, `NOISE_PERIOD[P] / 2 - 1` (R58 (b), R102). -/
def noiseReload (c : Cfg) (periodIndex : BitVec 4) : BitVec 12 :=
  BitVec.ofNat 12 (c.noisePeriod.get periodIndex.toFin / 2 - 1)

/-- The reload value of the DMC timer, `DMC_RATE[R] - 1` (R58 (c), R110). -/
def dmcReload (c : Cfg) (rateIndex : BitVec 4) : BitVec 9 :=
  BitVec.ofNat 9 (c.dmcRate.get rateIndex.toFin - 1)

/-- `DMC_ADDR_BASE + DMC_ADDR_STEP * data` (R61). -/
def dmcSampleAddress (c : Cfg) (data : Byte) : Addr :=
  BitVec.ofNat 16 (c.dmcAddrBase.toNat + c.dmcAddrStep * data.toNat)

/-- `DMC_LEN_STEP * data + DMC_LEN_BIAS` (R61). -/
def dmcSampleLength (c : Cfg) (data : Byte) : BitVec 12 :=
  BitVec.ofNat 12 (c.dmcLenStep * data.toNat + c.dmcLenBias)

/-- `NextAddr(a)` (R115). Where `DMC_WRAP_FROM` is not 0xFFFF, which R6 does not exclude, the rule's
`a + 1` at 0xFFFF fits no 16-bit address; it is 0x0000 here: DESIGN CHOICE (log 11). -/
def nextAddr (c : Cfg) (a : Addr) : Addr := if a = c.dmcWrapFrom then c.dmcWrapTo else a + 1

end Sys2Proof.Machine
end

