-- ==== Sys2Proof/Machine/Flags.lean ====
section
/-! DEFINITION. The flags of R18, the derived sweep-overflow condition (R80 to R82), the status byte
(R128) and the interrupt line (R133). -/

namespace Sys2Proof.Machine

/-- Which pulse channel (R11): they differ only in the sweep negate rule (R81). -/
inductive PulseUnit where
  | unit1
  | unit2
  deriving DecidableEq, Repr

/-- What unit 1 subtracts in addition on negate (R81). -/
def PulseUnit.extra : PulseUnit → Int
  | .unit1 => 1
  | .unit2 => 0

/-- `delta = timerPeriod >> shiftCount` (R80). -/
def sweepDelta (p : Pulse) : Nat := p.timerPeriod.toNat >>> p.sweep.shiftCount.toNat

/-- `SweepTarget(p)` on mathematical integers (R80). -/
def sweepTarget (u : PulseUnit) (p : Pulse) : Int :=
  if p.sweep.negate then p.timerPeriod.toNat - sweepDelta p - u.extra
  else p.timerPeriod.toNat + sweepDelta p

/-- `SweepOverflow(p)`: evaluated whenever it is needed, never stored (R18, R82). -/
def sweepOverflow (u : PulseUnit) (p : Pulse) : Bool := decide (2047 < sweepTarget u p)

/-- The DMC refill step finds nothing to play: it sets the silence flag, and the interrupt flag if the
sample does not loop and its interrupt is enabled; a set flag stays set (R111 (c), (d), R132). -/
def Dmc.starve (d : Dmc) : Dmc :=
  { d with silenceFlag := true, irqFlag := d.irqFlag || (!d.loopFlag && d.irqEnable) }

/-- Clear the DMC interrupt flag (R131). -/
def Dmc.clearIrq (d : Dmc) : Dmc := { d with irqFlag := false }

/-- The 4-step sequence ends: the interrupt flag is set unless inhibited (R117). -/
def FrameSequencer.raiseIrq (f : FrameSequencer) : FrameSequencer :=
  { f with irqFlag := f.irqFlag || !f.irqInhibit }

/-- Clear the frame interrupt flag (R131). -/
def FrameSequencer.clearIrq (f : FrameSequencer) : FrameSequencer := { f with irqFlag := false }

/-- `irq_line` (R133). -/
def Apu.irqLine (a : Apu) : Bool := a.frame.irqFlag || a.dmc.irqFlag

/-- "length counter active": is the counter not zero (R128)? -/
def LengthCounter.active (l : LengthCounter) : Bool := l.value != 0

/-- The byte a status read returns (R35, R128): bit 7 first. -/
def Apu.statusByte (a : Apu) : Byte :=
  BitVec.ofBool a.dmc.irqFlag ++ BitVec.ofBool a.frame.irqFlag ++ 0#1
    ++ BitVec.ofBool (a.dmc.bytesRemaining != 0) ++ BitVec.ofBool a.noise.length.active
    ++ BitVec.ofBool a.tri.length.active ++ BitVec.ofBool a.p2.length.active
    ++ BitVec.ofBool a.p1.length.active

end Sys2Proof.Machine
end

