-- ==== Sys2Proof/Machine/Noise.lean ====
section
/-! DEFINITION. The noise channel (R99 to R105). -/

namespace Sys2Proof.Machine

/-- `WR_NOI_ENV` (R99). -/
def Noise.writeEnv (n : Noise) (loopHalt constant : Bool) (volume : BitVec 4) : Noise :=
  { n with
    env := n.env.write loopHalt constant volume
    length := { n.length with haltFlag := loopHalt } }

/-- `WR_NOI_PERIOD` (R100). -/
def Noise.writePeriod (n : Noise) (mode : Bool) (periodIndex : BitVec 4) : Noise :=
  { n with modeFlag := mode, periodIndex := periodIndex }

/-- `WR_NOI_LEN` (R101). -/
def Noise.writeLength (c : Cfg) (n : Noise) (enabled : Bool) (idx : BitVec 5) : Noise :=
  { n with length := n.length.load c enabled idx }

/-- `LfsrStep()` (R103): the tap is bit 6 in mode 1 and bit 1 in mode 0 (D21, conflict C1). -/
def lfsrStep (mode : Bool) (r : BitVec 15) : BitVec 15 :=
  BitVec.ofBool (r.getLsbD 0 ^^ (if mode then r.getLsbD 6 else r.getLsbD 1)) ++ r.extractLsb' 1 14

/-- `NoiseTimerClock()` (R102). -/
def Noise.timerTick (c : Cfg) (n : Noise) : Noise :=
  let t := timerClock n.timerCounter (noiseReload c n.periodIndex)
  { n with
    timerCounter := t.1
    shiftRegister := if t.2 then lfsrStep n.modeFlag n.shiftRegister else n.shiftRegister }

/-- `NoiseOut()` (R104). -/
def Noise.output (n : Noise) : BitVec 4 :=
  if n.shiftRegister.getLsbD 0 ∨ n.length.value = 0 then 0 else n.env.output

/-! ### The events -/

/-- `WR_NOI_ENV` (R99). -/
def execWrNoiEnv (l k : Bool) (v : BitVec 4) (s : State) : Host.Outcome State Fault Refusal :=
  .next (s.update (s.apu.withNoise (s.apu.noise.writeEnv l k v)))

/-- `WR_NOI_PERIOD` (R100). -/
def execWrNoiPeriod (mode : Bool) (p : BitVec 4) (s : State) : Host.Outcome State Fault Refusal :=
  .next (s.update (s.apu.withNoise (s.apu.noise.writePeriod mode p)))

/-- `WR_NOI_LEN` (R101). -/
def execWrNoiLen (idx : BitVec 5) (s : State) : Host.Outcome State Fault Refusal :=
  .next (s.update (s.apu.withNoise (s.apu.noise.writeLength s.cfg s.apu.chanEnable.noise idx)))

end Sys2Proof.Machine
end

