-- ==== Sys2Proof/Machine/Pulse.lean ====
section
/-! DEFINITION. The pulse channels (R86 to R92): the register writes of both units, the sweep clock, the
timer clock and the output. -/

namespace Sys2Proof.Machine

/-! ### What a register write does to a pulse channel -/

/-- `WR_Px_CTRL` (R86). -/
def Pulse.writeCtrl (p : Pulse) (duty : BitVec 2) (loopHalt constant : Bool) (volume : BitVec 4) : Pulse :=
  { p with
    dutySelect := duty
    env := p.env.write loopHalt constant volume
    length := { p.length with haltFlag := loopHalt } }

/-- `WR_Px_SWEEP` (R87). -/
def Pulse.writeSweep (p : Pulse) (enabled : Bool) (period : BitVec 3) (negate : Bool) (shift : BitVec 3) :
    Pulse :=
  { p with
    sweep := { p.sweep with
      enabled := enabled, period := period, negate := negate, shiftCount := shift, reloadPending := true } }

/-- `WR_Px_LO` (R88). -/
def Pulse.writeLow (p : Pulse) (low : Byte) : Pulse :=
  { p with timerPeriod := periodWithLow p.timerPeriod low }

/-- `WR_Px_HI` (R89): the period and the duty sequencer are written even while the channel is disabled;
only the length load is skipped then. -/
def Pulse.writeHigh (c : Cfg) (p : Pulse) (enabled : Bool) (idx : BitVec 5) (high : BitVec 3) : Pulse :=
  { p with
    timerPeriod := periodWithHigh p.timerPeriod high
    length := p.length.load c enabled idx
    dutyIndex := 0 }

/-! ### Clocks -/

/-- The period update of `SweepClock(p)` (R83): only a target in 0..2047 is applied. -/
def Pulse.sweptPeriod (u : PulseUnit) (p : Pulse) : BitVec 11 :=
  if p.sweep.divider = 0 ∧ p.sweep.enabled ∧ p.sweep.shiftCount ≠ 0
      ∧ 0 ≤ sweepTarget u p ∧ sweepTarget u p ≤ 2047 then
    BitVec.ofInt 11 (sweepTarget u p)
  else p.timerPeriod

/-- The divider part of `SweepClock(p)` (R83). -/
def Sweep.clockDivider (w : Sweep) : Sweep :=
  if w.divider = 0 ∨ w.reloadPending then { w with divider := w.period, reloadPending := false }
  else { w with divider := w.divider - 1 }

/-- `SweepClock(p)` (R83): both tests use the divider the tick began with. -/
def Pulse.sweepClock (u : PulseUnit) (p : Pulse) : Pulse :=
  { p with timerPeriod := p.sweptPeriod u, sweep := p.sweep.clockDivider }

/-- What a half-frame tick does to a pulse channel (R92, R119). -/
def Pulse.halfFrame (u : PulseUnit) (p : Pulse) : Pulse :=
  { p with length := p.length.clock }.sweepClock u

/-- What a quarter-frame tick does to a pulse channel (R92, R118). -/
def Pulse.quarterFrame (p : Pulse) : Pulse := { p with env := p.env.clock }

/-- `PulseTimerClock(p)` (R90): the duty index steps down, 0 to 7, on a tick. -/
def Pulse.timerTick (p : Pulse) : Pulse :=
  let t := timerClock p.timerCounter p.timerPeriod
  { p with timerCounter := t.1, dutyIndex := if t.2 then p.dutyIndex - 1 else p.dutyIndex }

/-! ### Output -/

/-- `PulseOut(p)` (R91). -/
def Pulse.output (c : Cfg) (u : PulseUnit) (p : Pulse) : BitVec 4 :=
  if p.length.value = 0 ∨ p.timerPeriod.toNat < 8 ∨ sweepOverflow u p then 0
  else if dutyBit c p.dutySelect p.dutyIndex then p.env.output
  else 0

/-! ### The events -/

/-- `WR_P1_CTRL` (R86). -/
def execWrP1Ctrl (duty : BitVec 2) (l k : Bool) (v : BitVec 4) (s : State) : Host.Outcome State Fault Refusal :=
  .next (s.update (s.apu.withP1 (s.apu.p1.writeCtrl duty l k v)))

/-- `WR_P1_SWEEP` (R87). -/
def execWrP1Sweep (e : Bool) (p : BitVec 3) (n : Bool) (sh : BitVec 3) (s : State) :
    Host.Outcome State Fault Refusal :=
  .next (s.update (s.apu.withP1 (s.apu.p1.writeSweep e p n sh)))

/-- `WR_P1_LO` (R88). -/
def execWrP1Lo (low : Byte) (s : State) : Host.Outcome State Fault Refusal :=
  .next (s.update (s.apu.withP1 (s.apu.p1.writeLow low)))

/-- `WR_P1_HI` (R89). -/
def execWrP1Hi (idx : BitVec 5) (high : BitVec 3) (s : State) : Host.Outcome State Fault Refusal :=
  .next (s.update (s.apu.withP1 (s.apu.p1.writeHigh s.cfg s.apu.chanEnable.p1 idx high)))

/-- `WR_P2_CTRL` (R86). -/
def execWrP2Ctrl (duty : BitVec 2) (l k : Bool) (v : BitVec 4) (s : State) : Host.Outcome State Fault Refusal :=
  .next (s.update (s.apu.withP2 (s.apu.p2.writeCtrl duty l k v)))

/-- `WR_P2_SWEEP` (R87). -/
def execWrP2Sweep (e : Bool) (p : BitVec 3) (n : Bool) (sh : BitVec 3) (s : State) :
    Host.Outcome State Fault Refusal :=
  .next (s.update (s.apu.withP2 (s.apu.p2.writeSweep e p n sh)))

/-- `WR_P2_LO` (R88). -/
def execWrP2Lo (low : Byte) (s : State) : Host.Outcome State Fault Refusal :=
  .next (s.update (s.apu.withP2 (s.apu.p2.writeLow low)))

/-- `WR_P2_HI` (R89). -/
def execWrP2Hi (idx : BitVec 5) (high : BitVec 3) (s : State) : Host.Outcome State Fault Refusal :=
  .next (s.update (s.apu.withP2 (s.apu.p2.writeHigh s.cfg s.apu.chanEnable.p2 idx high)))

end Sys2Proof.Machine
end

