-- ==== Sys2Proof/Machine/Triangle.lean ====
section
/-! DEFINITION. The triangle channel and its linear counter (R93 to R98). -/

namespace Sys2Proof.Machine

/-- `WR_TRI_CTRL` (R93): the linear counter itself is reloaded at the next quarter-frame tick. -/
def Triangle.writeCtrl (t : Triangle) (halt : Bool) (reload : BitVec 7) : Triangle :=
  { t with
    length := { t.length with haltFlag := halt }
    linearCounterReload := reload
    linearControlFlag := true }

/-- `WR_TRI_LO` (R94). -/
def Triangle.writeLow (t : Triangle) (low : Byte) : Triangle :=
  { t with timerPeriod := periodWithLow t.timerPeriod low }

/-- `WR_TRI_HI` (R95): it does not set the reload flag (D20). -/
def Triangle.writeHigh (c : Cfg) (t : Triangle) (enabled : Bool) (idx : BitVec 5) (high : BitVec 3) :
    Triangle :=
  { t with
    timerPeriod := periodWithHigh t.timerPeriod high
    length := t.length.load c enabled idx }

/-- `TriTimerClock()` (R96): the sequencer is held while either counter is zero. -/
def Triangle.timerTick (t : Triangle) : Triangle :=
  let k := timerClock t.timerCounter t.timerPeriod
  { t with
    timerCounter := k.1
    sequenceIndex :=
      if k.2 ∧ t.length.value ≠ 0 ∧ t.linearCounter ≠ 0 then t.sequenceIndex + 1 else t.sequenceIndex }

/-- `LinearClock()` (R97). -/
def Triangle.linearClock (t : Triangle) : Triangle :=
  { t with
    linearCounter :=
      if t.linearControlFlag then t.linearCounterReload
      else if t.linearCounter ≠ 0 then t.linearCounter - 1
      else t.linearCounter
    linearControlFlag := if t.length.haltFlag then t.linearControlFlag else false }

/-- `TriOut()` (R98): a held level while the sequencer is held. -/
def Triangle.output (c : Cfg) (t : Triangle) : BitVec 4 := c.triTable.get t.sequenceIndex.toFin

/-! ### The events -/

/-- `WR_TRI_CTRL` (R93). -/
def execWrTriCtrl (halt : Bool) (reload : BitVec 7) (s : State) : Host.Outcome State Fault Refusal :=
  .next (s.update (s.apu.withTri (s.apu.tri.writeCtrl halt reload)))

/-- `WR_TRI_LO` (R94). -/
def execWrTriLo (low : Byte) (s : State) : Host.Outcome State Fault Refusal :=
  .next (s.update (s.apu.withTri (s.apu.tri.writeLow low)))

/-- `WR_TRI_HI` (R95). -/
def execWrTriHi (idx : BitVec 5) (high : BitVec 3) (s : State) : Host.Outcome State Fault Refusal :=
  .next (s.update (s.apu.withTri (s.apu.tri.writeHigh s.cfg s.apu.chanEnable.tri idx high)))

end Sys2Proof.Machine
end

