-- ==== Sys2Proof/Machine/Frame.lean ====
section
/-! DEFINITION. The frame sequencer (R116 to R120): the quarter- and half-frame ticks, the sequencer
clock and the frame-counter register. -/

namespace Sys2Proof.Machine

/-- `Quarter()` (R118). -/
def Apu.quarter (a : Apu) : Apu :=
  { a with
    p1 := a.p1.quarterFrame
    p2 := a.p2.quarterFrame
    noise := { a.noise with env := a.noise.env.clock }
    tri := a.tri.linearClock }

/-- `Half()` (R119). -/
def Apu.half (a : Apu) : Apu :=
  { a with
    p1 := a.p1.halfFrame .unit1
    p2 := a.p2.halfFrame .unit2
    tri := { a.tri with length := a.tri.length.clock }
    noise := { a.noise with length := a.noise.length.clock } }

/-- The end of a 4-step sequence, after its ticks: interrupt and restart (R117). -/
def FrameSequencer.endFourStep (f : FrameSequencer) : FrameSequencer :=
  { f.raiseIrq with cycleCounter := 0 }

/-- The end of a 5-step sequence, after its ticks: restart, no interrupt (R117). -/
def FrameSequencer.endFiveStep (f : FrameSequencer) : FrameSequencer := { f with cycleCounter := 0 }

/-- What the sequencer does in 4-step mode when the counter has reached `n` (R117). -/
def Apu.fourStepAt (c : Cfg) (n : Nat) (a : Apu) : Apu :=
  if n = c.fsA then a.quarter
  else if n = c.fsB then a.quarter.half
  else if n = c.fsC then a.quarter
  else if n = c.fsD then a.quarter.half.withFrame a.frame.endFourStep
  else a

/-- What the sequencer does in 5-step mode when the counter has reached `n` (R117). -/
def Apu.fiveStepAt (c : Cfg) (n : Nat) (a : Apu) : Apu :=
  if n = c.fsA then a.quarter
  else if n = c.fsB then a.quarter.half
  else if n = c.fsC then a.quarter
  else if n = c.fsD then a.quarter
  else if n = c.fsE then a.quarter.half.withFrame a.frame.endFiveStep
  else a

/-- `FsClock()` (R117): count first, then compare. -/
def Apu.fsClock (c : Cfg) (a : Apu) : Apu :=
  let n := a.frame.cycleCounter + 1
  let a1 := a.withFrame { a.frame with cycleCounter := n }
  match a.frame.mode with
  | .fourStep => a1.fourStepAt c n.toNat
  | .fiveStep => a1.fiveStepAt c n.toNat

/-- What `WR_FRAME` does to the sequencer's own fields (R116). -/
def FrameSequencer.write (f : FrameSequencer) (fiveStep irqInhibit : Bool) : FrameSequencer where
  mode := if fiveStep then .fiveStep else .fourStep
  cycleCounter := 0
  irqInhibit := irqInhibit
  irqFlag := if irqInhibit then false else f.irqFlag

/-- `WR_FRAME` on the block (R116): the 5-step mode fires one tick of each kind at once. -/
def Apu.writeFrame (a : Apu) (fiveStep irqInhibit : Bool) : Apu :=
  let a1 := a.withFrame (a.frame.write fiveStep irqInhibit)
  if fiveStep then a1.quarter.half else a1

/-- `WR_FRAME` (R116). -/
def execWrFrame (fiveStep irqInhibit : Bool) (s : State) : Host.Outcome State Fault Refusal :=
  .next (s.update (s.apu.writeFrame fiveStep irqInhibit))

end Sys2Proof.Machine
end

