-- ==== Sys2Proof/Machine/Dmc.lean ====
section
/-! DEFINITION. The delta-modulation channel (R106 to R115). -/

namespace Sys2Proof.Machine

/-- `WR_DMC_CTRL` (R106): disabling the interrupt also clears its flag (D23). -/
def Dmc.writeCtrl (d : Dmc) (irqEnable loop : Bool) (rateIndex : BitVec 4) : Dmc :=
  { d with
    irqEnable := irqEnable
    loopFlag := loop
    rateIndex := rateIndex
    irqFlag := if irqEnable then d.irqFlag else false }

/-- `WR_DMC_LOAD` (R107). -/
def Dmc.writeLoad (d : Dmc) (level : BitVec 7) : Dmc := { d with outputLevel := level }

/-- `WR_DMC_ADDR` (R108): a sample that is playing goes on from where it is. -/
def Dmc.writeAddr (c : Cfg) (d : Dmc) (value : Byte) : Dmc :=
  { d with sampleAddress := dmcSampleAddress c value }

/-- `WR_DMC_LEN` (R109). -/
def Dmc.writeLength (c : Cfg) (d : Dmc) (value : Byte) : Dmc :=
  { d with sampleLength := dmcSampleLength c value }

/-- `DmcRestart()` (R113). -/
def Dmc.restart (d : Dmc) : Dmc :=
  { d with currentAddress := d.sampleAddress, bytesRemaining := d.sampleLength }

/-- The effect of the status register's DMC bit (R127): 0 stops the reader, 1 starts the sample if
nothing of it remains. -/
def Dmc.gate (d : Dmc) (enable : Bool) : Dmc :=
  if enable then (if d.bytesRemaining = 0 then d.restart else d) else { d with bytesRemaining := 0 }

/-- The loop clause of `DmcRefill()`: only an enabled channel restarts itself (R111 (b), D25). -/
def Dmc.loopRestart (d : Dmc) (enabled : Bool) : Dmc :=
  if d.bytesRemaining = 0 ∧ d.loopFlag ∧ enabled then d.restart else d

/-- The fetch clause of `DmcRefill()`, with the byte the sample memory answered. -/
def Dmc.fetch (c : Cfg) (d : Dmc) (b : Byte) : Dmc :=
  { d with
    shiftRegister := b
    currentAddress := nextAddr c d.currentAddress
    bytesRemaining := d.bytesRemaining - 1
    bitsRemaining := 8
    silenceFlag := false }

/-- The delta counter's step, clamped to 0..127 (R112). -/
def Dmc.stepLevel (d : Dmc) : BitVec 7 :=
  if d.shiftRegister.getLsbD 0 then BitVec.ofNat 7 (min 127 (d.outputLevel.toNat + 2))
  else BitVec.ofNat 7 (d.outputLevel.toNat - 2)

/-- `DmcOutputStep()` (R112): skipped whole while silent. -/
def Dmc.outputStep (d : Dmc) : Dmc :=
  if d.silenceFlag then d
  else
    { d with
      outputLevel := d.stepLevel
      shiftRegister := d.shiftRegister >>> 1
      bitsRemaining := d.bitsRemaining - 1 }

/-- `DmcOut()` (R114). -/
def Dmc.output (d : Dmc) : BitVec 7 := d.outputLevel

/-! ### The clock, on the whole state: it reads the sample memory -/

def State.withDmc (s : State) (d : Dmc) : State := s.withApu (s.apu.withDmc d)

/-- `DmcRefill()` (R111): the three clauses in sequence. -/
def dmcRefill (c : Cfg) (s : State) : State :=
  if s.apu.dmc.bitsRemaining = 0 then
    let d := s.apu.dmc.loopRestart s.apu.chanEnable.dmc
    if d.bytesRemaining = 0 then s.withDmc d.starve
    else (s.withDmc (d.fetch c (s.memByte d.currentAddress))).presentAddr d.currentAddress
  else s

/-- `DmcTimerClock()` (R110). -/
def dmcTimerClock (c : Cfg) (s : State) : State :=
  let t := timerClock s.apu.dmc.timerCounter (dmcReload c s.apu.dmc.rateIndex)
  let s1 := s.withDmc { s.apu.dmc with timerCounter := t.1 }
  if t.2 then
    let s2 := dmcRefill c s1
    s2.withDmc s2.apu.dmc.outputStep
  else s1

/-! ### The events -/

/-- `WR_DMC_CTRL` (R106). -/
def execWrDmcCtrl (i l : Bool) (r : BitVec 4) (s : State) : Host.Outcome State Fault Refusal :=
  .next (s.update (s.apu.withDmc (s.apu.dmc.writeCtrl i l r)))

/-- `WR_DMC_LOAD` (R107). -/
def execWrDmcLoad (level : BitVec 7) (s : State) : Host.Outcome State Fault Refusal :=
  .next (s.update (s.apu.withDmc (s.apu.dmc.writeLoad level)))

/-- `WR_DMC_ADDR` (R108). -/
def execWrDmcAddr (value : Byte) (s : State) : Host.Outcome State Fault Refusal :=
  .next (s.update (s.apu.withDmc (s.apu.dmc.writeAddr s.cfg value)))

/-- `WR_DMC_LEN` (R109). -/
def execWrDmcLen (value : Byte) (s : State) : Host.Outcome State Fault Refusal :=
  .next (s.update (s.apu.withDmc (s.apu.dmc.writeLength s.cfg value)))

end Sys2Proof.Machine
end

