-- ==== Sys2Proof/Machine/Status.lean ====
section
/-! DEFINITION. The status register, both sides (R127, R128). -/

namespace Sys2Proof.Machine

/-- `WR_STATUS` on the block (R127). -/
def Apu.writeStatus (a : Apu) (p1 p2 tri noise dmc : Bool) : Apu :=
  { a with
    chanEnable := ⟨p1, p2, tri, noise, dmc⟩
    p1 := { a.p1 with length := a.p1.length.gate p1 }
    p2 := { a.p2 with length := a.p2.length.gate p2 }
    tri := { a.tri with length := a.tri.length.gate tri }
    noise := { a.noise with length := a.noise.length.gate noise }
    dmc := (a.dmc.gate dmc).clearIrq }

/-- `WR_STATUS` (R127). -/
def execWrStatus (p1 p2 tri noise dmc : Bool) (s : State) : Host.Outcome State Fault Refusal :=
  .next (s.update (s.apu.writeStatus p1 p2 tri noise dmc))

/-- `RD_STATUS` (R128): the byte is formed before the frame flag is cleared. -/
def execRdStatus (s : State) : Host.Outcome State Fault Refusal :=
  .next (s.answer (s.apu.withFrame s.apu.frame.clearIrq) s.apu.statusByte)

end Sys2Proof.Machine
end

