-- ==== Sys2Proof/Machine/Clock.lean ====
section
/-! DEFINITION. The clock event, the mixer and the sample clock (R121 to R125), and the reset event
(R142). -/

namespace Sys2Proof.Machine

/-! ### Mixer (R122, R123) -/

/-- A channel's output gated by its enable bit (R122). -/
def gated {w : Nat} (enable : Bool) (v : BitVec w) : Nat := if enable then v.toNat else 0

/-- The weighted sum of the five gated inputs (R122, R123), before it is put in 16 bits. -/
def Apu.mixLevel (c : Cfg) (a : Apu) : Nat :=
  c.mixWPulse * (gated a.chanEnable.p1 (a.p1.output c .unit1) + gated a.chanEnable.p2 (a.p2.output c .unit2))
    + c.mixWTri * gated a.chanEnable.tri (a.tri.output c)
    + c.mixWNoise * gated a.chanEnable.noise a.noise.output
    + c.mixWDmc * gated a.chanEnable.dmc a.dmc.output

/-- `Mix()` (R123); the weights' constraint keeps the sum within 16 bits (log 10). -/
def Apu.mix (c : Cfg) (a : Apu) : Sample := BitVec.ofNat 16 (a.mixLevel c)

/-! ### Clock (R121, R124) -/

/-- The accumulator after one `CLK`, and whether that `CLK` emits a sample (R124). -/
def sampleStep (c : Cfg) (acc : BitVec 32) : BitVec 32 × Bool :=
  if c.clockRate ≤ acc.toNat + c.sampleRate then
    (BitVec.ofNat 32 (acc.toNat + c.sampleRate - c.clockRate), true)
  else (BitVec.ofNat 32 (acc.toNat + c.sampleRate), false)

/-- `SampleClock()` (R124). -/
def sampleClock (c : Cfg) (s : State) : State :=
  let t := sampleStep c s.apu.sampleAcc
  let s1 := s.withApu (s.apu.withSampleAcc t.1)
  if t.2 then s1.emit (s.apu.mix c) else s1

/-- Step 2 of `CLK`: the half-rate timers, on even clocks only (R75, R121). -/
def Apu.halfRateTimers (c : Cfg) (a : Apu) : Apu :=
  if a.phase then a
  else
    { a with
      p1 := a.p1.timerTick
      p2 := a.p2.timerTick
      tri := a.tri.timerTick
      noise := a.noise.timerTick c }

/-- Step 4 of `CLK` (R121). -/
def Apu.togglePhase (a : Apu) : Apu := a.withPhase (!a.phase)

/-- Steps 1 to 4 of `CLK` (R121). -/
def advance (c : Cfg) (s : State) : State :=
  let s2 := dmcTimerClock c (s.update ((s.apu.fsClock c).halfRateTimers c))
  s2.withApu s2.apu.togglePhase

/-- `CLK` under a configuration (R121). -/
def clock (c : Cfg) (s : State) : State := sampleClock c (advance c s)

/-- `CLK` (R121). -/
def execClk (s : State) : Host.Outcome State Fault Refusal := .next (clock s.cfg s)

/-- `RESET` (R142): every field of the block takes its reset value; the configuration is unchanged and
nothing is emitted. -/
def execReset (s : State) : Host.Outcome State Fault Refusal := .next (s.update (Apu.reset s.cfg))

end Sys2Proof.Machine
end

