-- ==== Sys2Proof/Machine/Dispatch.lean ====
section
/-! DEFINITION. The meaning of each event: one arm per constructor of `Instr`. -/

namespace Sys2Proof.Machine

def exec (i : Instr) (s : State) : Host.Outcome State Fault Refusal :=
  match i with
  | .wrP1Ctrl d l k v => Sys2Proof.Machine.execWrP1Ctrl d l k v s
  | .wrP1Sweep e p n h => Sys2Proof.Machine.execWrP1Sweep e p n h s
  | .wrP1Lo b => Sys2Proof.Machine.execWrP1Lo b s
  | .wrP1Hi x h => Sys2Proof.Machine.execWrP1Hi x h s
  | .wrP2Ctrl d l k v => Sys2Proof.Machine.execWrP2Ctrl d l k v s
  | .wrP2Sweep e p n h => Sys2Proof.Machine.execWrP2Sweep e p n h s
  | .wrP2Lo b => Sys2Proof.Machine.execWrP2Lo b s
  | .wrP2Hi x h => Sys2Proof.Machine.execWrP2Hi x h s
  | .wrTriCtrl h r => Sys2Proof.Machine.execWrTriCtrl h r s
  | .wrTriUnused => Sys2Proof.Machine.execWrTriUnused s
  | .wrTriLo b => Sys2Proof.Machine.execWrTriLo b s
  | .wrTriHi x h => Sys2Proof.Machine.execWrTriHi x h s
  | .wrNoiEnv l k v => Sys2Proof.Machine.execWrNoiEnv l k v s
  | .wrNoiUnused => Sys2Proof.Machine.execWrNoiUnused s
  | .wrNoiPeriod m p => Sys2Proof.Machine.execWrNoiPeriod m p s
  | .wrNoiLen x => Sys2Proof.Machine.execWrNoiLen x s
  | .wrDmcCtrl q l r => Sys2Proof.Machine.execWrDmcCtrl q l r s
  | .wrDmcLoad v => Sys2Proof.Machine.execWrDmcLoad v s
  | .wrDmcAddr b => Sys2Proof.Machine.execWrDmcAddr b s
  | .wrDmcLen b => Sys2Proof.Machine.execWrDmcLen b s
  | .wrStatus a b t n d => Sys2Proof.Machine.execWrStatus a b t n d s
  | .rdStatus => Sys2Proof.Machine.execRdStatus s
  | .wrFrame m q => Sys2Proof.Machine.execWrFrame m q s
  | .wrUnmapped a => Sys2Proof.Machine.execWrUnmapped a s
  | .rdUnmapped a => Sys2Proof.Machine.execRdUnmapped a s
  | .clk => Sys2Proof.Machine.execClk s
  | .reset => Sys2Proof.Machine.execReset s

end Sys2Proof.Machine
end

