-- ==== Sys2Proof/Machine/Step.lean ====
section
/-! DEFINITION. One step: the oldest pending event is decoded and applied (R9, R51). -/

namespace Sys2Proof.Machine

/-- One step of the machine. The block has no program counter (R14): what a step fetches is the oldest
event the caller has still to apply. With none pending nothing happens, since the block changes by
events only: DESIGN CHOICE (log 5). -/
def step (s : State) : Host.Outcome State Fault Refusal :=
  match s.events with
  | [] => .next s
  | e :: rest => exec (decodeEvent s.cfg e) { s with events := rest }

/-- The state whose next event is the table word `w`, before every event already pending. This stands
for the caller presenting an event (log 5). -/
def State.withFetchWord (s : State) (nbits w : Nat) : State :=
  { s with events := BitVec.ofNat 26 (tableWord nbits w) :: s.events }

end Sys2Proof.Machine
end

