-- ==== Sys2Proof/Safety.lean ====
section
/-! DEFINITION. The invariants of rule R41, and runs of events, in whose terms the statements speak. No
state of this machine is unsafe in the sense of a stop: every step answers a next state (R130). -/

namespace Sys2Proof.Machine

/-- The invariants of R41, (a) to (h), under the machine's own configuration, which meets the constraints
(I12), and the canonical form of the sample memory. States outside them are reached by no run (log 8). -/
structure Inv (s : State) : Prop where
  /-- The configuration is one the model is defined for (I12; log 3). -/
  cfgWf : s.cfg.Wf
  /-- (a) the noise shift register is never zero. -/
  noiseNonzero : s.apu.noise.shiftRegister ≠ 0
  /-- (b) a silent DMC has no bit left. -/
  silentEmpty : s.apu.dmc.silenceFlag = true → s.apu.dmc.bitsRemaining = 0
  /-- (c) -/
  bitsBound : s.apu.dmc.bitsRemaining.toNat ≤ 8
  /-- (d) -/
  sampleLengthPos : 1 ≤ s.apu.dmc.sampleLength.toNat
  /-- (e), which the field's width alone gives. -/
  levelBound : s.apu.dmc.outputLevel.toNat ≤ 127
  /-- (f) -/
  cycleFourStep : s.apu.frame.mode = .fourStep → s.apu.frame.cycleCounter.toNat < s.cfg.fsD
  cycleFiveStep : s.apu.frame.mode = .fiveStep → s.apu.frame.cycleCounter.toNat < s.cfg.fsE
  /-- (g) -/
  accBound : s.apu.sampleAcc.toNat < s.cfg.clockRate
  /-- (h) a disabled channel's counter is zero. -/
  gatedP1 : s.apu.chanEnable.p1 = false → s.apu.p1.length.value = 0
  gatedP2 : s.apu.chanEnable.p2 = false → s.apu.p2.length.value = 0
  gatedTri : s.apu.chanEnable.tri = false → s.apu.tri.length.value = 0
  gatedNoise : s.apu.chanEnable.noise = false → s.apu.noise.length.value = 0
  gatedDmc : s.apu.chanEnable.dmc = false → s.apu.dmc.bytesRemaining = 0
  /-- The sample memory keeps its canonical form. -/
  memCanonical : Memory.wf s.mem = true

/-- The ranges rules R13 and R15 give the fields whose width is wider than their range, and the part of
the address space a sample can touch (R49), under the machine's own configuration. -/
structure Ranges (s : State) : Prop where
  noiseTimer : ∃ i : Fin 16, s.apu.noise.timerCounter.toNat ≤ s.cfg.noisePeriod.get i / 2 - 1
  dmcTimer : ∃ i : Fin 16, s.apu.dmc.timerCounter.toNat ≤ s.cfg.dmcRate.get i - 1
  sampleAddress : ∃ k : Byte,
    s.apu.dmc.sampleAddress.toNat = s.cfg.dmcAddrBase.toNat + s.cfg.dmcAddrStep * k.toNat
  sampleLength : ∃ k : Byte, s.apu.dmc.sampleLength.toNat = s.cfg.dmcLenStep * k.toNat + s.cfg.dmcLenBias
  bytesRemaining : s.apu.dmc.bytesRemaining.toNat ≤ 255 * s.cfg.dmcLenStep + s.cfg.dmcLenBias
  fetchInBank : s.cfg.WrapsInBank → s.apu.dmc.bytesRemaining ≠ 0 →
    s.cfg.dmcWrapTo.toNat ≤ s.apu.dmc.currentAddress.toNat

/-- Apply events in order, stopping at the first that does not answer a next state. -/
def execList : List Instr → State → Host.Outcome State Fault Refusal
  | [], s => .next s
  | i :: rest, s =>
    match exec i s with
    | .next t => execList rest t
    | .fault r => .fault r
    | .refused r => .refused r

/-- `n` consecutive `CLK` events (R64, `CLK n`). -/
def clocks (n : Nat) (s : State) : Host.Outcome State Fault Refusal := execList (List.replicate n .clk) s

/-- The samples a list of events emits, the first one first. -/
def samplesOf : List Instr → State → List Sample
  | [], _ => []
  | i :: rest, s =>
    match exec i s with
    | .next t => t.out.sample.toList ++ samplesOf rest t
    | .fault _ => []
    | .refused _ => []

/-- `f` applied `n` times. -/
def times {α : Type} (f : α → α) : Nat → α → α
  | 0, a => a
  | n + 1, a => times f n (f a)

end Sys2Proof.Machine
end

