-- ==== Sys2Proof/Certificates/Slice0/Obligations.lean ====
section
/-! DEFINITION. The statements for the provers. Each is a rule of the spec, or follows from its rules, said
of the machine of Machine/. A docstring names the rule, and says so where a clause rests on a decision
of the spec (D<n>) or of this model (log <n>). A statement about a state is about the machine of whatever
configuration that state carries (`s.cfg`, R6). -/

open Sys2Proof Sys2Proof.Machine

/-! ### Encoding -/

/-- Decoding an encoded well-formed event gives it back, with every operand at every value, for every
configuration. -/
def Obligations.DecodeInvertsEncode : Prop :=
  ∀ (c : Cfg) (i : Instr), i.wf c = true → decodeEvent c (encode c i) = i

/-- What the decoder gives is a well-formed event whatever the word, so decoding is total (R55). -/
def Obligations.DecodedEventsAreWellFormed : Prop :=
  ∀ (c : Cfg) (e : EventWord), (decodeEvent c e).wf c = true

/-- The decoder follows the opcode map (R55, R66): full-address rows first, kind rows after them, at
most one row of each mask, and always one; for every base whose registers have 16-bit addresses (log 3). -/
def Obligations.DecodeFollowsOpcodeMap : Prop :=
  ∀ (c : Cfg) (e : EventWord), c.apuBase.toNat + 0x17 < 2 ^ 16 →
    (applicableRows c e).head?.map OpcodeRow.mnemonic = some (decodeEvent c e).mnemonic
    ∧ ((fullAddressRows.map (·.rebase c)).filter (·.applies e)).length ≤ 1
    ∧ (kindRows.filter (·.applies e)).length = 1

/-- Every register's data byte is split into the fields of its format (R56), and the rows of format
`F_NONE` have none: `CLK` and `RESET` ignore address and data, `READ` ignores data (R54). -/
def Obligations.RegisterFormatsSplitData : Prop :=
  ∀ (c : Cfg) (d : Byte),
    decodeEvent c (writeWord (c.apuBase + 0x00) d)
      = .wrP1Ctrl (d.extractLsb' 6 2) (d.getLsbD 5) (d.getLsbD 4) (d.extractLsb' 0 4)
    ∧ decodeEvent c (writeWord (c.apuBase + 0x01) d)
      = .wrP1Sweep (d.getLsbD 7) (d.extractLsb' 4 3) (d.getLsbD 3) (d.extractLsb' 0 3)
    ∧ decodeEvent c (writeWord (c.apuBase + 0x02) d) = .wrP1Lo d
    ∧ decodeEvent c (writeWord (c.apuBase + 0x03) d) = .wrP1Hi (d.extractLsb' 3 5) (d.extractLsb' 0 3)
    ∧ decodeEvent c (writeWord (c.apuBase + 0x04) d)
      = .wrP2Ctrl (d.extractLsb' 6 2) (d.getLsbD 5) (d.getLsbD 4) (d.extractLsb' 0 4)
    ∧ decodeEvent c (writeWord (c.apuBase + 0x05) d)
      = .wrP2Sweep (d.getLsbD 7) (d.extractLsb' 4 3) (d.getLsbD 3) (d.extractLsb' 0 3)
    ∧ decodeEvent c (writeWord (c.apuBase + 0x06) d) = .wrP2Lo d
    ∧ decodeEvent c (writeWord (c.apuBase + 0x07) d) = .wrP2Hi (d.extractLsb' 3 5) (d.extractLsb' 0 3)
    ∧ decodeEvent c (writeWord (c.apuBase + 0x08) d) = .wrTriCtrl (d.getLsbD 7) (d.extractLsb' 0 7)
    ∧ decodeEvent c (writeWord (c.apuBase + 0x09) d) = .wrTriUnused
    ∧ decodeEvent c (writeWord (c.apuBase + 0x0A) d) = .wrTriLo d
    ∧ decodeEvent c (writeWord (c.apuBase + 0x0B) d) = .wrTriHi (d.extractLsb' 3 5) (d.extractLsb' 0 3)
    ∧ decodeEvent c (writeWord (c.apuBase + 0x0C) d)
      = .wrNoiEnv (d.getLsbD 5) (d.getLsbD 4) (d.extractLsb' 0 4)
    ∧ decodeEvent c (writeWord (c.apuBase + 0x0D) d) = .wrNoiUnused
    ∧ decodeEvent c (writeWord (c.apuBase + 0x0E) d) = .wrNoiPeriod (d.getLsbD 7) (d.extractLsb' 0 4)
    ∧ decodeEvent c (writeWord (c.apuBase + 0x0F) d) = .wrNoiLen (d.extractLsb' 3 5)
    ∧ decodeEvent c (writeWord (c.apuBase + 0x10) d)
      = .wrDmcCtrl (d.getLsbD 7) (d.getLsbD 6) (d.extractLsb' 0 4)
    ∧ decodeEvent c (writeWord (c.apuBase + 0x11) d) = .wrDmcLoad (d.extractLsb' 0 7)
    ∧ decodeEvent c (writeWord (c.apuBase + 0x12) d) = .wrDmcAddr d
    ∧ decodeEvent c (writeWord (c.apuBase + 0x13) d) = .wrDmcLen d
    ∧ decodeEvent c (writeWord (c.apuBase + 0x15) d)
      = .wrStatus (d.getLsbD 0) (d.getLsbD 1) (d.getLsbD 2) (d.getLsbD 3) (d.getLsbD 4)
    ∧ decodeEvent c (writeWord (c.apuBase + 0x17) d) = .wrFrame (d.getLsbD 7) (d.getLsbD 6)
    ∧ decodeEvent c (eventWord 1 (c.apuBase + 0x15) d) = .rdStatus
    ∧ (∀ a : Addr, a ≠ c.apuBase + 0x15 → decodeEvent c (eventWord 1 a d) = .rdUnmapped a)
    ∧ (∀ a : Addr, decodeEvent c (eventWord 0 a d) = .clk)
    ∧ (∀ a : Addr, decodeEvent c (eventWord 3 a d) = .reset)

/-- The unmapped set of R48, for writes and for reads, for every base whose registers have 16-bit addresses
(log 3). -/
def Obligations.UnmappedAddressSet : Prop :=
  ∀ (c : Cfg) (a : Addr) (d : Byte), c.apuBase.toNat + 0x17 < 2 ^ 16 →
    (decodeEvent c (writeWord a d) = .wrUnmapped a ↔
      (a.toNat < c.apuBase.toNat ∨ a.toNat = c.apuBase.toNat + 0x14 ∨ a.toNat = c.apuBase.toNat + 0x16
        ∨ c.apuBase.toNat + 0x18 ≤ a.toNat))
    ∧ (decodeEvent c (readWord a) = .rdUnmapped a ↔ a.toNat ≠ c.apuBase.toNat + 0x15)

/-- A bit a format shows as `-` has no effect whatever its value, every byte is accepted by every
register, and every event word runs (R62), under every configuration. -/
def Obligations.IgnoredBitsHaveNoEffect : Prop :=
  ∀ (c : Cfg) (d : Byte) (s : State),
    let same (off : Addr) (m : Byte) : Prop :=
      exec (decodeEvent c (writeWord (c.apuBase + off) d)) s
        = exec (decodeEvent c (writeWord (c.apuBase + off) (d &&& m))) s
    same 0x09 0 ∧ same 0x0C 0x3F ∧ same 0x0D 0 ∧ same 0x0E 0x8F ∧ same 0x0F 0xF8 ∧ same 0x10 0xCF
    ∧ same 0x11 0x7F ∧ same 0x15 0x1F ∧ same 0x17 0xC0
    ∧ ∀ e : EventWord, ∃ t, exec (decodeEvent c e) s = .next t

/-- Words of the spec's vectors V-U1 to V-U8 and of its programs, written out. -/
def Obligations.KnownWordsDecode : Prop :=
  decodeEvent Config.cfg 0x24000B8 = .wrP1Ctrl 2 true true 8
  ∧ decodeEvent Config.cfg 0x2400581 = .wrP2Sweep true 0 false 1
  ∧ decodeEvent Config.cfg 0x2400802 = .wrTriCtrl false 2
  ∧ decodeEvent Config.cfg 0x2400C3F = .wrNoiEnv true true 15
  ∧ decodeEvent Config.cfg 0x240108F = .wrDmcCtrl true false 15
  ∧ decodeEvent Config.cfg 0x2401501 = .wrStatus true false false false false
  ∧ decodeEvent Config.cfg 0x1401500 = .rdStatus
  ∧ decodeEvent Config.cfg 0x2401780 = .wrFrame true false
  ∧ decodeEvent Config.cfg 0x2401402 = .wrUnmapped 0x4014
  ∧ decodeEvent Config.cfg 0x1401700 = .rdUnmapped 0x4017
  ∧ decodeEvent Config.cfg 0x0ABCDEF = .clk
  ∧ decodeEvent Config.cfg 0x3FFFFFF = .reset

/-- The byte transport (the model's choice, log 7): a word's four bytes decode to the word's event and
leave the bytes after them, a 32-bit number that is no 26-bit word is refused by name, and so are fewer
than four bytes. -/
def Obligations.ByteTransportCarriesWords : Prop :=
  (∀ (c : Cfg) (e : EventWord) (rest : List Byte),
    decode c (bytesOf 4 e.toNat ++ rest) = .ok (decodeEvent c e, rest))
  ∧ (∀ (c : Cfg) (w : Nat) (rest : List Byte), 2 ^ 26 ≤ w → w < 2 ^ 32 →
    decode c (bytesOf 4 w ++ rest) = .error .notAnEventWord)
  ∧ (∀ (c : Cfg) (bs : List Byte), bs.length < 4 → decode c bs = .error .truncated)

/-! ### Steps -/

/-- A step runs the decoded event: the oldest pending word is taken from the queue and applied, and a
well-formed event's own word runs that event. With none pending nothing happens (the model's choice,
log 5). -/
def Obligations.StepAppliesOldestEvent : Prop :=
  (∀ (s : State) (e : EventWord) (rest : List EventWord), s.events = e :: rest →
    step s = exec (decodeEvent s.cfg e) { s with events := rest })
  ∧ (∀ (s : State) (i : Instr) (rest : List EventWord), i.wf s.cfg = true →
    s.events = encode s.cfg i :: rest → step s = exec i { s with events := rest })
  ∧ (∀ s : State, s.events = [] → step s = .next s)

/-- Every event completes: no state and no event word makes the machine stop (R130). -/
def Obligations.EveryEventCompletes : Prop :=
  (∀ (i : Instr) (s : State), ∃ t, exec i s = .next t) ∧ ∀ s : State, ∃ t, step s = .next t

/-- No event writes the sample memory, the caller's queue or the configuration (R42, I3), and only a `CLK`
reads the memory, at most once; it then presents the address it reads, that of the byte to play next: where
the sample that is playing has come to, or, when none of it remains, where it starts again (R8, R9, R111). -/
def Obligations.EventsKeepSampleMemory : Prop :=
  ∀ (i : Instr) (s t : State), exec i s = .next t →
    (∀ a : Nat, Memory.lookup t.mem a = Memory.lookup s.mem a) ∧ t.mem = s.mem ∧ t.events = s.events
    ∧ t.cfg = s.cfg
    ∧ ((t.memReads = s.memReads ∧ t.out.memAddr = none)
      ∨ (i = .clk ∧ t.memReads = s.memReads + 1 ∧ t.out.memAddr
        = some (if s.apu.dmc.bytesRemaining = 0 then s.apu.dmc.sampleAddress else s.apu.dmc.currentAddress)))

/-! ### Register writes: the whole next state, so the frame is in the equation -/

/-- `WR_P1_CTRL`, `WR_P2_CTRL` (R86): the word, the five fields, and the envelope restarts with the new
volume. -/
def Obligations.PulseControlWrite : Prop :=
  (∀ (c : Cfg) (d : Byte),
    decodeEvent c (writeWord (c.apuBase + 0x00) d)
      = .wrP1Ctrl (d.extractLsb' 6 2) (d.getLsbD 5) (d.getLsbD 4) (d.extractLsb' 0 4)
    ∧ decodeEvent c (writeWord (c.apuBase + 0x04) d)
      = .wrP2Ctrl (d.extractLsb' 6 2) (d.getLsbD 5) (d.getLsbD 4) (d.extractLsb' 0 4))
  ∧ ∀ (duty : BitVec 2) (l k : Bool) (v : BitVec 4) (s : State),
    exec (.wrP1Ctrl duty l k v) s = .next { s with
      out := Outputs.none
      apu := { s.apu with p1 := { s.apu.p1 with
        dutySelect := duty
        env := ⟨l, k, v, 15, v⟩
        length := { s.apu.p1.length with haltFlag := l } } } }
    ∧ exec (.wrP2Ctrl duty l k v) s = .next { s with
      out := Outputs.none
      apu := { s.apu with p2 := { s.apu.p2 with
        dutySelect := duty
        env := ⟨l, k, v, 15, v⟩
        length := { s.apu.p2.length with haltFlag := l } } } }

/-- `WR_P1_SWEEP`, `WR_P2_SWEEP` (R87): the word, the four fields and the pending reload (its setter is the
spec's decision D18); the divider stays. -/
def Obligations.PulseSweepWrite : Prop :=
  (∀ (c : Cfg) (d : Byte),
    decodeEvent c (writeWord (c.apuBase + 0x01) d)
      = .wrP1Sweep (d.getLsbD 7) (d.extractLsb' 4 3) (d.getLsbD 3) (d.extractLsb' 0 3)
    ∧ decodeEvent c (writeWord (c.apuBase + 0x05) d)
      = .wrP2Sweep (d.getLsbD 7) (d.extractLsb' 4 3) (d.getLsbD 3) (d.extractLsb' 0 3))
  ∧ ∀ (e : Bool) (p : BitVec 3) (n : Bool) (h : BitVec 3) (s : State),
    exec (.wrP1Sweep e p n h) s = .next { s with
      out := Outputs.none
      apu := { s.apu with p1 := { s.apu.p1 with sweep := ⟨e, p, n, h, s.apu.p1.sweep.divider, true⟩ } } }
    ∧ exec (.wrP2Sweep e p n h) s = .next { s with
      out := Outputs.none
      apu := { s.apu with p2 := { s.apu.p2 with sweep := ⟨e, p, n, h, s.apu.p2.sweep.divider, true⟩ } } }

/-- `WR_P1_LO`, `WR_P2_LO` (R88): bits 7:0 of the period are replaced, bits 10:8 kept, nothing else. -/
def Obligations.PulsePeriodLowWrite : Prop :=
  ∀ (c : Cfg) (b : Byte) (s : State),
    decodeEvent c (writeWord (c.apuBase + 0x02) b) = .wrP1Lo b
    ∧ decodeEvent c (writeWord (c.apuBase + 0x06) b) = .wrP2Lo b
    ∧ exec (.wrP1Lo b) s = .next { s with
      out := Outputs.none
      apu := { s.apu with p1 := { s.apu.p1 with
        timerPeriod := s.apu.p1.timerPeriod.extractLsb' 8 3 ++ b } } }
    ∧ exec (.wrP2Lo b) s = .next { s with
      out := Outputs.none
      apu := { s.apu with p2 := { s.apu.p2 with
        timerPeriod := s.apu.p2.timerPeriod.extractLsb' 8 3 ++ b } } }

/-- `WR_P1_HI`, `WR_P2_HI` (R89): the word, bits 10:8 of the period, the duty sequencer restarts (the spec's
decision D19), and an enabled channel loads its length counter from the table (a disabled one does not: D13). -/
def Obligations.PulsePeriodHighWrite : Prop :=
  (∀ (c : Cfg) (d : Byte),
    decodeEvent c (writeWord (c.apuBase + 0x03) d) = .wrP1Hi (d.extractLsb' 3 5) (d.extractLsb' 0 3)
    ∧ decodeEvent c (writeWord (c.apuBase + 0x07) d) = .wrP2Hi (d.extractLsb' 3 5) (d.extractLsb' 0 3))
  ∧ ∀ (x : BitVec 5) (h : BitVec 3) (s : State),
    exec (.wrP1Hi x h) s = .next { s with
      out := Outputs.none
      apu := { s.apu with p1 := { s.apu.p1 with
        timerPeriod := h ++ s.apu.p1.timerPeriod.extractLsb' 0 8
        dutyIndex := 0
        length := { s.apu.p1.length with
          value := if s.apu.chanEnable.p1 = true then s.cfg.lengthTable.get x.toFin
            else s.apu.p1.length.value } } } }
    ∧ exec (.wrP2Hi x h) s = .next { s with
      out := Outputs.none
      apu := { s.apu with p2 := { s.apu.p2 with
        timerPeriod := h ++ s.apu.p2.timerPeriod.extractLsb' 0 8
        dutyIndex := 0
        length := { s.apu.p2.length with
          value := if s.apu.chanEnable.p2 = true then s.cfg.lengthTable.get x.toFin
            else s.apu.p2.length.value } } } }

/-- `WR_TRI_CTRL`, `WR_TRI_LO`, `WR_TRI_HI` (R93, R94, R95): only the control write sets the reload flag
(the spec's decision D20). -/
def Obligations.TriangleWrites : Prop :=
  (∀ (c : Cfg) (d : Byte),
    decodeEvent c (writeWord (c.apuBase + 0x08) d) = .wrTriCtrl (d.getLsbD 7) (d.extractLsb' 0 7)
    ∧ decodeEvent c (writeWord (c.apuBase + 0x0A) d) = .wrTriLo d
    ∧ decodeEvent c (writeWord (c.apuBase + 0x0B) d) = .wrTriHi (d.extractLsb' 3 5) (d.extractLsb' 0 3))
  ∧ ∀ (halt : Bool) (r : BitVec 7) (b : Byte) (x : BitVec 5) (h : BitVec 3) (s : State),
    exec (.wrTriCtrl halt r) s = .next { s with
      out := Outputs.none
      apu := { s.apu with tri := { s.apu.tri with
        length := { s.apu.tri.length with haltFlag := halt }
        linearCounterReload := r
        linearControlFlag := true } } }
    ∧ exec (.wrTriLo b) s = .next { s with
      out := Outputs.none
      apu := { s.apu with tri := { s.apu.tri with
        timerPeriod := s.apu.tri.timerPeriod.extractLsb' 8 3 ++ b } } }
    ∧ exec (.wrTriHi x h) s = .next { s with
      out := Outputs.none
      apu := { s.apu with tri := { s.apu.tri with
        timerPeriod := h ++ s.apu.tri.timerPeriod.extractLsb' 0 8
        length := { s.apu.tri.length with
          value := if s.apu.chanEnable.tri = true then s.cfg.lengthTable.get x.toFin
            else s.apu.tri.length.value } } } }

/-- `WR_NOI_ENV`, `WR_NOI_PERIOD`, `WR_NOI_LEN` (R99, R100, R101). -/
def Obligations.NoiseWrites : Prop :=
  (∀ (c : Cfg) (d : Byte),
    decodeEvent c (writeWord (c.apuBase + 0x0C) d)
      = .wrNoiEnv (d.getLsbD 5) (d.getLsbD 4) (d.extractLsb' 0 4)
    ∧ decodeEvent c (writeWord (c.apuBase + 0x0E) d) = .wrNoiPeriod (d.getLsbD 7) (d.extractLsb' 0 4)
    ∧ decodeEvent c (writeWord (c.apuBase + 0x0F) d) = .wrNoiLen (d.extractLsb' 3 5))
  ∧ ∀ (l k m : Bool) (v p : BitVec 4) (x : BitVec 5) (s : State),
    exec (.wrNoiEnv l k v) s = .next { s with
      out := Outputs.none
      apu := { s.apu with noise := { s.apu.noise with
        env := ⟨l, k, v, 15, v⟩
        length := { s.apu.noise.length with haltFlag := l } } } }
    ∧ exec (.wrNoiPeriod m p) s = .next { s with
      out := Outputs.none
      apu := { s.apu with noise := { s.apu.noise with modeFlag := m, periodIndex := p } } }
    ∧ exec (.wrNoiLen x) s = .next { s with
      out := Outputs.none
      apu := { s.apu with noise := { s.apu.noise with
        length := { s.apu.noise.length with
          value := if s.apu.chanEnable.noise = true then s.cfg.lengthTable.get x.toFin
            else s.apu.noise.length.value } } } }

/-- `WR_DMC_CTRL`, `WR_DMC_LOAD`, `WR_DMC_ADDR`, `WR_DMC_LEN` (R106 to R109): the address is
`DMC_ADDR_BASE + DMC_ADDR_STEP * data`, `0xC000 + 64 * data` by default, the length
`DMC_LEN_STEP * data + DMC_LEN_BIAS`, `16 * data + 1` by default, neither touching the sample that is playing
(exactly, where the configuration lets them fit their fields: log 3); disabling the interrupt clears its flag
(the spec's decision D23). -/
def Obligations.DmcWrites : Prop :=
  (∀ (c : Cfg) (d : Byte),
    decodeEvent c (writeWord (c.apuBase + 0x10) d)
      = .wrDmcCtrl (d.getLsbD 7) (d.getLsbD 6) (d.extractLsb' 0 4)
    ∧ decodeEvent c (writeWord (c.apuBase + 0x11) d) = .wrDmcLoad (d.extractLsb' 0 7)
    ∧ decodeEvent c (writeWord (c.apuBase + 0x12) d) = .wrDmcAddr d
    ∧ decodeEvent c (writeWord (c.apuBase + 0x13) d) = .wrDmcLen d)
  ∧ ∀ (q l : Bool) (r : BitVec 4) (v : BitVec 7) (b : Byte) (s : State),
    exec (.wrDmcCtrl q l r) s = .next { s with
      out := Outputs.none
      apu := { s.apu with dmc := { s.apu.dmc with
        irqEnable := q
        loopFlag := l
        rateIndex := r
        irqFlag := if q = false then false else s.apu.dmc.irqFlag } } }
    ∧ exec (.wrDmcLoad v) s = .next { s with
      out := Outputs.none
      apu := { s.apu with dmc := { s.apu.dmc with outputLevel := v } } }
    ∧ (∃ a : Addr, (s.cfg.Wf → a.toNat = s.cfg.dmcAddrBase.toNat + s.cfg.dmcAddrStep * b.toNat)
      ∧ (s.cfg = Config.ntsc → a.toNat = 0xC000 + 64 * b.toNat)
      ∧ exec (.wrDmcAddr b) s = .next { s with
      out := Outputs.none
      apu := { s.apu with dmc := { s.apu.dmc with sampleAddress := a } } })
    ∧ (∃ n : BitVec 12, (s.cfg.Wf → n.toNat = s.cfg.dmcLenStep * b.toNat + s.cfg.dmcLenBias)
      ∧ (s.cfg = Config.ntsc → n.toNat = 16 * b.toNat + 1)
      ∧ exec (.wrDmcLen b) s = .next { s with
      out := Outputs.none
      apu := { s.apu with dmc := { s.apu.dmc with sampleLength := n } } })

/-- `WR_STATUS` (R127): the enables, the length counters of the channels switched off, the DMC stopped or
started, its interrupt flag cleared (the DMC lines are the spec's decisions D23, D25); nothing else. -/
def Obligations.StatusWrite : Prop :=
  (∀ (c : Cfg) (d : Byte), decodeEvent c (writeWord (c.apuBase + 0x15) d)
    = .wrStatus (d.getLsbD 0) (d.getLsbD 1) (d.getLsbD 2) (d.getLsbD 3) (d.getLsbD 4))
  ∧ ∀ (b1 b2 bt bn bd : Bool) (s : State),
    exec (.wrStatus b1 b2 bt bn bd) s = .next { s with
      out := Outputs.none
      apu := { s.apu with
        chanEnable := ⟨b1, b2, bt, bn, bd⟩
        p1 := { s.apu.p1 with length := { s.apu.p1.length with
          value := if b1 = false then 0 else s.apu.p1.length.value } }
        p2 := { s.apu.p2 with length := { s.apu.p2.length with
          value := if b2 = false then 0 else s.apu.p2.length.value } }
        tri := { s.apu.tri with length := { s.apu.tri.length with
          value := if bt = false then 0 else s.apu.tri.length.value } }
        noise := { s.apu.noise with length := { s.apu.noise.length with
          value := if bn = false then 0 else s.apu.noise.length.value } }
        dmc := { s.apu.dmc with
          irqFlag := false
          bytesRemaining := if bd = false then 0
            else if s.apu.dmc.bytesRemaining = 0 then s.apu.dmc.sampleLength else s.apu.dmc.bytesRemaining
          currentAddress := if bd = true ∧ s.apu.dmc.bytesRemaining = 0 then s.apu.dmc.sampleAddress
            else s.apu.dmc.currentAddress } } }

/-- `RD_STATUS` (R128): the byte, bit by bit (their places and bit 5 are the spec's decision D26), and the frame
flag cleared after it is formed. -/
def Obligations.StatusRead : Prop :=
  (∀ (c : Cfg) (d : Byte), decodeEvent c (eventWord 1 (c.apuBase + 0x15) d) = .rdStatus)
  ∧ ∀ s : State, ∃ b : Byte,
    exec .rdStatus s = .next { s with
      out := { Outputs.none with readByte := some b }
      apu := { s.apu with frame := { s.apu.frame with irqFlag := false } } }
    ∧ b.getLsbD 7 = s.apu.dmc.irqFlag
    ∧ b.getLsbD 6 = s.apu.frame.irqFlag
    ∧ b.getLsbD 5 = false
    ∧ (b.getLsbD 4 = true ↔ s.apu.dmc.bytesRemaining ≠ 0)
    ∧ (b.getLsbD 3 = true ↔ s.apu.noise.length.value ≠ 0)
    ∧ (b.getLsbD 2 = true ↔ s.apu.tri.length.value ≠ 0)
    ∧ (b.getLsbD 1 = true ↔ s.apu.p2.length.value ≠ 0)
    ∧ (b.getLsbD 0 = true ↔ s.apu.p1.length.value ≠ 0)

/-- `WR_FRAME` (R116): the sequencer's fields, and in 5-step mode one `Quarter()` and one `Half()` at once
(their effect: QuarterFrameTick, HalfFrameTick); inhibiting clears the flag (the spec's decision D27). -/
def Obligations.FrameCounterWrite : Prop :=
  (∀ (c : Cfg) (d : Byte), decodeEvent c (writeWord (c.apuBase + 0x17) d) = .wrFrame (d.getLsbD 7) (d.getLsbD 6))
  ∧ ∀ (q : Bool) (s : State),
    exec (.wrFrame false q) s = .next { s with
      out := Outputs.none
      apu := { s.apu with frame := ⟨.fourStep, 0, q, if q = true then false else s.apu.frame.irqFlag⟩ } }
    ∧ exec (.wrFrame true q) s = .next { s with
      out := Outputs.none
      apu := { s.apu with
        frame := ⟨.fiveStep, 0, q, if q = true then false else s.apu.frame.irqFlag⟩ }.quarter.half }

/-- Accesses that find no register (R59, R60): which words they are, no state change, and a read returns
`OPEN_BUS` (the spec's decision D29). -/
def Obligations.AccessesWithoutRegister : Prop :=
  ∀ (c : Cfg) (a : Addr) (d : Byte) (s : State),
    decodeEvent c (writeWord (c.apuBase + 0x09) d) = .wrTriUnused
    ∧ decodeEvent c (writeWord (c.apuBase + 0x0D) d) = .wrNoiUnused
    ∧ ((∀ off ∈ writeOffsets, a ≠ c.apuBase + off) → decodeEvent c (writeWord a d) = .wrUnmapped a)
    ∧ (a ≠ c.apuBase + 0x15 → decodeEvent c (eventWord 1 a d) = .rdUnmapped a)
    ∧ exec .wrTriUnused s = .next { s with out := Outputs.none }
    ∧ exec .wrNoiUnused s = .next { s with out := Outputs.none }
    ∧ exec (.wrUnmapped a) s = .next { s with out := Outputs.none }
    ∧ exec (.rdUnmapped a) s
      = .next { s with out := { Outputs.none with readByte := some s.cfg.openBus } }

/-- `RESET` (R142): the word, the whole block takes its reset value at once, whatever it was, the
configuration is unchanged, no sample is emitted, what holds after it, and a status read after it returns 0.
That power-on and a later reset are one event is the spec's decision D28. -/
def Obligations.ResetEvent : Prop :=
  (∀ (c : Cfg) (a : Addr) (d : Byte), decodeEvent c (eventWord 3 a d) = .reset)
  ∧ ∀ s : State, ∃ r : Apu,
    exec .reset s = .next { s with out := Outputs.none, apu := r } ∧ r = (State.resetWith s.cfg).apu
    ∧ r.chanEnable = ⟨false, false, false, false, false⟩
    ∧ r.p1.length.value = 0 ∧ r.p2.length.value = 0 ∧ r.tri.length.value = 0 ∧ r.noise.length.value = 0
    ∧ r.p1.timerCounter = 0 ∧ r.p2.timerCounter = 0 ∧ r.tri.timerCounter = 0 ∧ r.noise.timerCounter = 0
    ∧ r.dmc.timerCounter = 0
    ∧ r.p1.dutyIndex = 0 ∧ r.p2.dutyIndex = 0 ∧ r.tri.sequenceIndex = 0
    ∧ r.noise.shiftRegister = 1
    ∧ r.dmc.sampleAddress = s.cfg.dmcAddrBase ∧ r.dmc.sampleLength = BitVec.ofNat 12 s.cfg.dmcLenBias
    ∧ (s.cfg = Config.ntsc → r.dmc.sampleAddress = 0xC000 ∧ r.dmc.sampleLength = 1)
    ∧ r.dmc.silenceFlag = true
    ∧ r.frame.mode = .fourStep ∧ r.frame.irqInhibit = false
    ∧ r.frame.irqFlag = false ∧ r.dmc.irqFlag = false ∧ r.irqLine = false
    ∧ r.phase = false ∧ r.sampleAcc = 0
    ∧ ∃ t, execList [.reset, .rdStatus] s = .next t ∧ t.out.readByte = some 0

/-- The reset values (R40). All but the noise seed are the spec's decisions D10, D15, D28; that nothing
is pending and no byte of the sample memory is fixed is the model's choice (log 5), and so is the NTSC build
(log 2). -/
def Obligations.ResetValues : Prop :=
  State.reset.apu.p1 = ⟨0, 0, 0, 0, ⟨false, false, 0, 0, 0⟩, ⟨false, 0, false, 0, 0, false⟩, ⟨0, false⟩⟩
  ∧ State.reset.apu.p2 = State.reset.apu.p1
  ∧ State.reset.apu.tri = ⟨0, 0, 0, 0, 0, false, ⟨0, false⟩⟩
  ∧ State.reset.apu.noise = ⟨0, 0, false, 1, ⟨false, false, 0, 0, 0⟩, ⟨0, false⟩⟩
  ∧ State.reset.apu.dmc = ⟨false, false, 0, 0, 0xC000, 1, 0, 0, 0, 0, true, 0, false⟩
  ∧ State.reset.apu.frame = ⟨.fourStep, 0, false, false⟩
  ∧ State.reset.apu.chanEnable = ⟨false, false, false, false, false⟩
  ∧ State.reset.apu.phase = false
  ∧ State.reset.apu.sampleAcc = 0
  ∧ State.reset.events = [] ∧ State.reset.mem = []
  ∧ State.reset.cfg = Config.ntsc

/-! ### The clock event and the procedures it calls -/

/-- `CLK` (R121): the five steps in order, said of the next state part by part. The frame sequencer acts
first, so the timers see what its ticks wrote; the sample is the mix of the state after all of it. The order is
the spec's decision D16. -/
def Obligations.ClockEvent : Prop :=
  (∀ (c : Cfg) (a : Addr) (d : Byte), decodeEvent c (eventWord 0 a d) = .clk)
  ∧ ∀ s : State, ∃ t, exec .clk s = .next t
    ∧ t.apu.frame = (s.apu.fsClock s.cfg).frame
    ∧ t.apu.p1 = (if s.apu.phase = false then (s.apu.fsClock s.cfg).p1.timerTick
        else (s.apu.fsClock s.cfg).p1)
    ∧ t.apu.p2 = (if s.apu.phase = false then (s.apu.fsClock s.cfg).p2.timerTick
        else (s.apu.fsClock s.cfg).p2)
    ∧ t.apu.tri = (if s.apu.phase = false then (s.apu.fsClock s.cfg).tri.timerTick
        else (s.apu.fsClock s.cfg).tri)
    ∧ t.apu.noise = (if s.apu.phase = false then (s.apu.fsClock s.cfg).noise.timerTick s.cfg
        else (s.apu.fsClock s.cfg).noise)
    ∧ t.apu.dmc = (dmcTimerClock s.cfg s).apu.dmc
    ∧ t.memReads = (dmcTimerClock s.cfg s).memReads
    ∧ t.apu.phase = !s.apu.phase
    ∧ t.apu.chanEnable = s.apu.chanEnable
    ∧ t.out.readByte = none
    ∧ t.out.memAddr = (if (dmcTimerClock s.cfg s).memReads = s.memReads then none
        else (dmcTimerClock s.cfg s).out.memAddr)
    ∧ (s.cfg.Wf → s.apu.sampleAcc.toNat + s.cfg.sampleRate < s.cfg.clockRate →
        t.apu.sampleAcc.toNat = s.apu.sampleAcc.toNat + s.cfg.sampleRate ∧ t.out.sample = none)
    ∧ (s.cfg.Wf → s.cfg.clockRate ≤ s.apu.sampleAcc.toNat + s.cfg.sampleRate →
        s.apu.sampleAcc.toNat < s.cfg.clockRate →
        t.apu.sampleAcc.toNat = s.apu.sampleAcc.toNat + s.cfg.sampleRate - s.cfg.clockRate
        ∧ t.out.sample = some (t.apu.mix s.cfg))

/-- The first `CLK` after `RESET` (the example of R121, vector V-M1). -/
def Obligations.FirstClockAfterReset : Prop :=
  ∃ t, exec .clk State.reset = .next t
    ∧ t.apu.frame.cycleCounter = 1 ∧ t.apu.p1.dutyIndex = 7 ∧ t.apu.p2.dutyIndex = 7
    ∧ t.apu.tri.sequenceIndex = 0 ∧ t.apu.noise.shiftRegister = 0x4000 ∧ t.apu.noise.timerCounter = 1
    ∧ t.apu.dmc.timerCounter = 427 ∧ t.apu.dmc.silenceFlag = true ∧ t.apu.phase = true
    ∧ t.apu.sampleAcc = 44100 ∧ t.out.sample = none

/-- `FsClock()` (R117): what each count does, in each mode, for every configuration in order. -/
def Obligations.FrameSequencerClock : Prop :=
  ∀ (c : Cfg) (a : Apu), c.Wf →
    let n := (a.frame.cycleCounter + 1).toNat
    let counted := a.withFrame { a.frame with cycleCounter := a.frame.cycleCounter + 1 }
    (a.frame.mode = .fourStep →
      (n = c.fsA ∨ n = c.fsC → a.fsClock c = counted.quarter)
      ∧ (n = c.fsB → a.fsClock c = counted.quarter.half)
      ∧ (n = c.fsD → a.fsClock c = counted.quarter.half.withFrame
          { a.frame with
            cycleCounter := 0
            irqFlag := if a.frame.irqInhibit = false then true else a.frame.irqFlag })
      ∧ (n ≠ c.fsA → n ≠ c.fsB → n ≠ c.fsC → n ≠ c.fsD → a.fsClock c = counted))
    ∧ (a.frame.mode = .fiveStep →
      (n = c.fsA ∨ n = c.fsC ∨ n = c.fsD → a.fsClock c = counted.quarter)
      ∧ (n = c.fsB → a.fsClock c = counted.quarter.half)
      ∧ (n = c.fsE → a.fsClock c = counted.quarter.half.withFrame { a.frame with cycleCounter := 0 })
      ∧ (n ≠ c.fsA → n ≠ c.fsB → n ≠ c.fsC → n ≠ c.fsD → n ≠ c.fsE → a.fsClock c = counted))

/-- `Quarter()` (R118): the three envelopes and the linear counter, with the rules of each (R79, R97), and
nothing else. -/
def Obligations.QuarterFrameTick : Prop :=
  ∀ a : Apu, ∃ e1 e2 en : Envelope, ∃ t : Triangle,
    a.quarter = { a with
      p1 := { a.p1 with env := e1 }
      p2 := { a.p2 with env := e2 }
      noise := { a.noise with env := en }
      tri := t }
    ∧ (∀ p ∈ [(a.p1.env, e1), (a.p2.env, e2), (a.noise.env, en)],
      p.2.loopFlag = p.1.loopFlag ∧ p.2.constantFlag = p.1.constantFlag ∧ p.2.volume = p.1.volume
      ∧ (p.1.divider = 0 → p.2.divider = p.1.volume
        ∧ p.2.decayCounter = (if p.1.decayCounter ≠ 0 then p.1.decayCounter - 1
            else if p.1.loopFlag = true then 15 else 0))
      ∧ (p.1.divider ≠ 0 → p.2.divider = p.1.divider - 1 ∧ p.2.decayCounter = p.1.decayCounter))
    ∧ t = { a.tri with
      linearCounter := if a.tri.linearControlFlag = true then a.tri.linearCounterReload
        else if a.tri.linearCounter ≠ 0 then a.tri.linearCounter - 1 else 0
      linearControlFlag := if a.tri.length.haltFlag = false then false else a.tri.linearControlFlag }

/-- `Half()` (R119): the four length counters and the two sweep units, with the rules of each (R73, R83),
and nothing else. -/
def Obligations.HalfFrameTick : Prop :=
  ∀ a : Apu, ∃ l1 l2 lt ln : LengthCounter, ∃ q1 q2 : BitVec 11, ∃ w1 w2 : Sweep,
    a.half = { a with
      p1 := { a.p1 with length := l1, timerPeriod := q1, sweep := w1 }
      p2 := { a.p2 with length := l2, timerPeriod := q2, sweep := w2 }
      tri := { a.tri with length := lt }
      noise := { a.noise with length := ln } }
    ∧ (∀ p ∈ [(a.p1.length, l1), (a.p2.length, l2), (a.tri.length, lt), (a.noise.length, ln)],
      p.2.haltFlag = p.1.haltFlag
      ∧ p.2.value.toNat = (if p.1.haltFlag = true then p.1.value.toNat else p.1.value.toNat - 1))
    ∧ (∀ p ∈ [(PulseUnit.unit1, a.p1, q1, w1), (PulseUnit.unit2, a.p2, q2, w2)],
      (p.2.1.sweep.divider = 0 ∧ p.2.1.sweep.enabled = true ∧ p.2.1.sweep.shiftCount ≠ 0
          ∧ 0 ≤ sweepTarget p.1 p.2.1 ∧ sweepTarget p.1 p.2.1 ≤ 2047 →
        (p.2.2.1.toNat : Int) = sweepTarget p.1 p.2.1)
      ∧ (¬ (p.2.1.sweep.divider = 0 ∧ p.2.1.sweep.enabled = true ∧ p.2.1.sweep.shiftCount ≠ 0
          ∧ 0 ≤ sweepTarget p.1 p.2.1 ∧ sweepTarget p.1 p.2.1 ≤ 2047) →
        p.2.2.1 = p.2.1.timerPeriod)
      ∧ p.2.2.2 = { p.2.1.sweep with
        divider := if p.2.1.sweep.divider = 0 ∨ p.2.1.sweep.reloadPending = true then p.2.1.sweep.period
          else p.2.1.sweep.divider - 1
        reloadPending := false })

/-- `SweepTarget` and `SweepOverflow` (R80, R81, R82): the formula, the unit difference, the range
-1..4094, and that negation never overflows. -/
def Obligations.SweepTargetLaw : Prop :=
  ∀ (u : PulseUnit) (p : Pulse),
    let delta : Int := (p.timerPeriod.toNat / 2 ^ p.sweep.shiftCount.toNat : Nat)
    (p.sweep.negate = false → sweepTarget u p = p.timerPeriod.toNat + delta)
    ∧ (p.sweep.negate = true → sweepTarget .unit1 p = p.timerPeriod.toNat - delta - 1
        ∧ sweepTarget .unit2 p = p.timerPeriod.toNat - delta ∧ sweepOverflow u p = false)
    ∧ -1 ≤ sweepTarget u p ∧ sweepTarget u p ≤ 4094
    ∧ (sweepOverflow u p = true ↔ 2047 < sweepTarget u p)

/-- The three half-rate timers with a written period or rate, and the LFSR (R76, R90, R96, R102, R103),
for every configuration within the constraints. -/
def Obligations.HalfRateTimerClocks : Prop :=
  ∀ (c : Cfg) (p : Pulse) (t : Triangle) (n : Noise), c.Wf →
    (p.timerCounter = 0 →
      p.timerTick = { p with timerCounter := p.timerPeriod, dutyIndex := p.dutyIndex - 1 })
    ∧ (p.timerCounter ≠ 0 → p.timerTick = { p with timerCounter := p.timerCounter - 1 })
    ∧ (t.timerCounter = 0 → t.timerTick = { t with
        timerCounter := t.timerPeriod
        sequenceIndex := if t.length.value ≠ 0 ∧ t.linearCounter ≠ 0 then t.sequenceIndex + 1
          else t.sequenceIndex })
    ∧ (t.timerCounter ≠ 0 → t.timerTick = { t with timerCounter := t.timerCounter - 1 })
    ∧ (n.timerCounter ≠ 0 → n.timerTick c = { n with timerCounter := n.timerCounter - 1 })
    ∧ (n.timerCounter = 0 → ∃ k : BitVec 12, ∃ r : BitVec 15,
        n.timerTick c = { n with timerCounter := k, shiftRegister := r }
        ∧ 2 * (k.toNat + 1) = c.noisePeriod.get n.periodIndex.toFin
        ∧ r.getLsbD 14 = (n.shiftRegister.getLsbD 0
            ^^ (if n.modeFlag = true then n.shiftRegister.getLsbD 6 else n.shiftRegister.getLsbD 1))
        ∧ ∀ j : Nat, j < 14 → r.getLsbD j = n.shiftRegister.getLsbD (j + 1))

/-- The channel outputs (R77, R91, R98, R104, R114). -/
def Obligations.ChannelOutputs : Prop :=
  ∀ (c : Cfg) (u : PulseUnit) (p : Pulse) (t : Triangle) (n : Noise) (d : Dmc),
    (p.length.value = 0 ∨ p.timerPeriod.toNat < 8 ∨ 2047 < sweepTarget u p → p.output c u = 0)
    ∧ (p.length.value ≠ 0 → 8 ≤ p.timerPeriod.toNat → sweepTarget u p ≤ 2047 →
        p.output c u = (if (c.dutyTable.get p.dutySelect.toFin).get p.dutyIndex.toFin = true then
          (if p.env.constantFlag = true then p.env.volume else p.env.decayCounter) else 0))
    ∧ t.output c = c.triTable.get t.sequenceIndex.toFin
    ∧ (n.shiftRegister.getLsbD 0 = true ∨ n.length.value = 0 → n.output = 0)
    ∧ (n.shiftRegister.getLsbD 0 = false → n.length.value ≠ 0 →
        n.output = (if n.env.constantFlag = true then n.env.volume else n.env.decayCounter))
    ∧ d.output = d.outputLevel

/-- `DmcRefill()` (R111), clause by clause: nothing while bits remain; a restart of an enabled looping
sample and then the fetch from its beginning (or silence, if its length is 0, which no run reaches);
silence, and the interrupt, when nothing remains; the fetch, with the byte the sample memory answers,
otherwise. The order of the clauses, the guard of the restart and the repeated interrupt are the spec's
decisions D22, D25, D23. Two points are the model's: under a configuration whose `DMC_WRAP_FROM` is not
0xFFFF the fetch at 0xFFFF leaves the address 0x0000 (DESIGN CHOICE, log 11), and the zero-length restart
falls silent as the clauses say in sequence (DEDUCED, log 8). -/
def Obligations.DmcRefillStep : Prop :=
  ∀ (c : Cfg) (s : State),
    let d := s.apu.dmc
    let loops := d.loopFlag = true ∧ s.apu.chanEnable.dmc = true
    let fetched (from_ : Addr) (left : BitVec 12) : State := { s with
      memReads := s.memReads + 1
      out := { s.out with memAddr := some from_ }
      apu := { s.apu with dmc := { d with
        shiftRegister := s.memByte from_
        currentAddress := if from_ = c.dmcWrapFrom then c.dmcWrapTo else from_ + 1
        bytesRemaining := left - 1
        bitsRemaining := 8
        silenceFlag := false } } }
    (d.bitsRemaining ≠ 0 → dmcRefill c s = s)
    ∧ (d.bitsRemaining = 0 → d.bytesRemaining ≠ 0 →
        dmcRefill c s = fetched d.currentAddress d.bytesRemaining)
    ∧ (d.bitsRemaining = 0 → d.bytesRemaining = 0 → loops → d.sampleLength ≠ 0 →
        dmcRefill c s = fetched d.sampleAddress d.sampleLength)
    ∧ (d.bitsRemaining = 0 → d.bytesRemaining = 0 → loops → d.sampleLength = 0 →
        dmcRefill c s = { s with apu := { s.apu with dmc := { d with
          currentAddress := d.sampleAddress
          silenceFlag := true } } })
    ∧ (d.bitsRemaining = 0 → d.bytesRemaining = 0 → ¬ loops →
        dmcRefill c s = { s with apu := { s.apu with dmc := { d with
          silenceFlag := true
          irqFlag := if d.loopFlag = false ∧ d.irqEnable = true then true else d.irqFlag } } })

/-- A fetch reads the byte the collaborator has fixed at the address (R8, R49): fixing a byte makes the
memory answer it there and changes no other address's fixed byte, and keeps the canonical form. -/
def Obligations.SampleMemoryAnswers : Prop :=
  ∀ (s : State) (a b : Addr) (v : Byte),
    (s.withSampleByte a v).memByte a = v
    ∧ (a ≠ b → (s.withSampleByte a v).memByte b = s.memByte b)
    ∧ (Memory.wf s.mem = true → Memory.wf (s.withSampleByte a v).mem = true)

/-- `DmcTimerClock()` and `DmcOutputStep()` (R110, R112): a tick every `DMC_RATE` clocks runs the refill
and then the delta counter's step, which adds or subtracts 2 within 0..127 and is skipped while silent. -/
def Obligations.DmcTimerAndOutputStep : Prop :=
  ∀ (c : Cfg) (s : State), c.Wf →
    (s.apu.dmc.timerCounter ≠ 0 → dmcTimerClock c s
      = s.withDmc { s.apu.dmc with timerCounter := s.apu.dmc.timerCounter - 1 })
    ∧ (s.apu.dmc.timerCounter = 0 → ∃ k : BitVec 9,
      k.toNat + 1 = c.dmcRate.get s.apu.dmc.rateIndex.toFin
      ∧ ∃ r, r = dmcRefill c (s.withDmc { s.apu.dmc with timerCounter := k })
      ∧ ∃ d, dmcTimerClock c s = r.withDmc d
      ∧ (r.apu.dmc.silenceFlag = true → d = r.apu.dmc)
      ∧ (r.apu.dmc.silenceFlag = false → ∃ v : BitVec 7,
          d = { r.apu.dmc with
            outputLevel := v
            shiftRegister := r.apu.dmc.shiftRegister >>> 1
            bitsRemaining := r.apu.dmc.bitsRemaining - 1 }
          ∧ v.toNat = (if r.apu.dmc.shiftRegister.getLsbD 0 = true then min 127 (r.apu.dmc.outputLevel.toNat + 2)
              else r.apu.dmc.outputLevel.toNat - 2)))

/-- The mixer (R122, R123): for every configuration that keeps the constraint on the weights, the signed
sample is exactly the weighted sum of the gated outputs, so it is never negative and never overflows. -/
def Obligations.MixIsWeightedSum : Prop :=
  ∀ (c : Cfg) (a : Apu),
    30 * c.mixWPulse + 15 * c.mixWTri + 15 * c.mixWNoise + 127 * c.mixWDmc ≤ 32767 →
    let gate (b : Bool) (n : Nat) : Int := if b = true then n else 0
    (a.mix c).toInt
      = c.mixWPulse * (gate a.chanEnable.p1 (a.p1.output c .unit1).toNat
          + gate a.chanEnable.p2 (a.p2.output c .unit2).toNat)
        + c.mixWTri * gate a.chanEnable.tri (a.tri.output c).toNat
        + c.mixWNoise * gate a.chanEnable.noise a.noise.output.toNat
        + c.mixWDmc * gate a.chanEnable.dmc a.dmc.output.toNat
    ∧ 0 ≤ (a.mix c).toInt

/-- The interrupt line and its acknowledges (R133, R137). -/
def Obligations.InterruptLineAndAcknowledge : Prop :=
  (∀ a : Apu, a.irqLine = true ↔ a.frame.irqFlag = true ∨ a.dmc.irqFlag = true)
  ∧ ∀ s : State,
    (∃ t, exec .rdStatus s = .next t ∧ t.apu.irqLine = s.apu.dmc.irqFlag)
    ∧ (∀ m : Bool, ∃ t, exec (.wrFrame m true) s = .next t ∧ t.apu.irqLine = s.apu.dmc.irqFlag)
    ∧ (∀ b1 b2 bt bn bd : Bool, ∃ t, exec (.wrStatus b1 b2 bt bn bd) s = .next t
        ∧ t.apu.irqLine = s.apu.frame.irqFlag)
    ∧ (∀ (l : Bool) (r : BitVec 4), ∃ t, exec (.wrDmcCtrl false l r) s = .next t
        ∧ t.apu.irqLine = s.apu.frame.irqFlag)

/-! ### Rules about the whole machine -/

/-- The frame interrupt flag (R131): only the end of an uninhibited 4-step sequence sets it, only
`RD_STATUS`, an inhibiting `WR_FRAME` and `RESET` clear it. -/
def Obligations.FrameInterruptSources : Prop :=
  ∀ (i : Instr) (s t : State), exec i s = .next t →
    (s.apu.frame.irqFlag = false → t.apu.frame.irqFlag = true →
      i = .clk ∧ s.apu.frame.mode = .fourStep ∧ s.apu.frame.irqInhibit = false
      ∧ (s.apu.frame.cycleCounter + 1).toNat = s.cfg.fsD ∧ t.apu.frame.cycleCounter = 0)
    ∧ (s.apu.frame.irqFlag = true → t.apu.frame.irqFlag = false →
      i = .rdStatus ∨ (∃ m, i = .wrFrame m true) ∨ i = .reset)

/-- The DMC interrupt flag (R131): only a refill that finds nothing to play, with the interrupt enabled and
no loop, sets it; only `WR_STATUS`, a disabling `WR_DMC_CTRL` and `RESET` clear it. -/
def Obligations.DmcInterruptSources : Prop :=
  ∀ (i : Instr) (s t : State), exec i s = .next t →
    (s.apu.dmc.irqFlag = false → t.apu.dmc.irqFlag = true →
      i = .clk ∧ s.apu.dmc.timerCounter = 0 ∧ s.apu.dmc.bitsRemaining = 0 ∧ s.apu.dmc.bytesRemaining = 0
      ∧ s.apu.dmc.loopFlag = false ∧ s.apu.dmc.irqEnable = true ∧ t.apu.dmc.silenceFlag = true)
    ∧ (s.apu.dmc.irqFlag = true → t.apu.dmc.irqFlag = false →
      i.mnemonic = "WR_STATUS" ∨ (∃ l r, i = .wrDmcCtrl false l r) ∨ i = .reset)

/-- Fields change by their writers only (the "written by" columns of R11 to R17): for each field named, an
event other than `RESET` that changes it is one of its writers. -/
def Obligations.FieldsChangeOnlyByTheirWriters : Prop :=
  ∀ (i : Instr) (s t : State), exec i s = .next t → i ≠ .reset →
    let byOnly (names : List String) : Prop := i.mnemonic ∈ names
    (t.apu.chanEnable ≠ s.apu.chanEnable → byOnly ["WR_STATUS"])
    ∧ (t.apu.phase ≠ s.apu.phase → byOnly ["CLK"])
    ∧ (t.apu.sampleAcc ≠ s.apu.sampleAcc → byOnly ["CLK"])
    ∧ (t.apu.p1.timerCounter ≠ s.apu.p1.timerCounter → byOnly ["CLK"])
    ∧ (t.apu.p2.timerCounter ≠ s.apu.p2.timerCounter → byOnly ["CLK"])
    ∧ (t.apu.tri.timerCounter ≠ s.apu.tri.timerCounter → byOnly ["CLK"])
    ∧ (t.apu.noise.timerCounter ≠ s.apu.noise.timerCounter → byOnly ["CLK"])
    ∧ (t.apu.dmc.timerCounter ≠ s.apu.dmc.timerCounter → byOnly ["CLK"])
    ∧ (t.apu.p1.dutyIndex ≠ s.apu.p1.dutyIndex → byOnly ["CLK", "WR_P1_HI"])
    ∧ (t.apu.p2.dutyIndex ≠ s.apu.p2.dutyIndex → byOnly ["CLK", "WR_P2_HI"])
    ∧ (t.apu.p1.dutySelect ≠ s.apu.p1.dutySelect → byOnly ["WR_P1_CTRL"])
    ∧ (t.apu.p2.dutySelect ≠ s.apu.p2.dutySelect → byOnly ["WR_P2_CTRL"])
    ∧ (t.apu.p1.timerPeriod ≠ s.apu.p1.timerPeriod → byOnly ["WR_P1_LO", "WR_P1_HI", "CLK", "WR_FRAME"])
    ∧ (t.apu.p2.timerPeriod ≠ s.apu.p2.timerPeriod → byOnly ["WR_P2_LO", "WR_P2_HI", "CLK", "WR_FRAME"])
    ∧ (t.apu.tri.timerPeriod ≠ s.apu.tri.timerPeriod → byOnly ["WR_TRI_LO", "WR_TRI_HI"])
    ∧ (t.apu.tri.sequenceIndex ≠ s.apu.tri.sequenceIndex → byOnly ["CLK"])
    ∧ (t.apu.tri.linearCounterReload ≠ s.apu.tri.linearCounterReload → byOnly ["WR_TRI_CTRL"])
    ∧ (t.apu.tri.linearCounter ≠ s.apu.tri.linearCounter → byOnly ["CLK", "WR_FRAME"])
    ∧ (t.apu.tri.linearControlFlag ≠ s.apu.tri.linearControlFlag → byOnly ["WR_TRI_CTRL", "CLK", "WR_FRAME"])
    ∧ (t.apu.noise.shiftRegister ≠ s.apu.noise.shiftRegister → byOnly ["CLK"])
    ∧ (t.apu.noise.periodIndex ≠ s.apu.noise.periodIndex → byOnly ["WR_NOI_PERIOD"])
    ∧ (t.apu.noise.modeFlag ≠ s.apu.noise.modeFlag → byOnly ["WR_NOI_PERIOD"])
    ∧ (t.apu.dmc.outputLevel ≠ s.apu.dmc.outputLevel → byOnly ["WR_DMC_LOAD", "CLK"])
    ∧ (t.apu.dmc.sampleAddress ≠ s.apu.dmc.sampleAddress → byOnly ["WR_DMC_ADDR"])
    ∧ (t.apu.dmc.sampleLength ≠ s.apu.dmc.sampleLength → byOnly ["WR_DMC_LEN"])
    ∧ (t.apu.dmc.rateIndex ≠ s.apu.dmc.rateIndex → byOnly ["WR_DMC_CTRL"])
    ∧ (t.apu.dmc.currentAddress ≠ s.apu.dmc.currentAddress → byOnly ["CLK", "WR_STATUS"])
    ∧ (t.apu.dmc.bytesRemaining ≠ s.apu.dmc.bytesRemaining → byOnly ["CLK", "WR_STATUS"])
    ∧ (t.apu.dmc.silenceFlag ≠ s.apu.dmc.silenceFlag → byOnly ["CLK"])
    ∧ (t.apu.frame.mode ≠ s.apu.frame.mode → byOnly ["WR_FRAME"])
    ∧ (t.apu.frame.irqInhibit ≠ s.apu.frame.irqInhibit → byOnly ["WR_FRAME"])
    ∧ (t.apu.frame.cycleCounter ≠ s.apu.frame.cycleCounter → byOnly ["WR_FRAME", "CLK"])

/-- The pulse units share no state (R11): changing one unit's state before an event changes nothing but
that unit's state after it (the mixed sample and the status byte, which read it, apart). -/
def Obligations.PulseUnitsAreIndependent : Prop :=
  ∀ (i : Instr) (s t u : State) (p : Pulse),
    (exec i s = .next t → exec i (s.withApu (s.apu.withP2 p)) = .next u →
      u.apu = t.apu.withP2 u.apu.p2 ∧ u.mem = t.mem ∧ u.events = t.events ∧ u.memReads = t.memReads
      ∧ u.out.memAddr = t.out.memAddr ∧ u.cfg = t.cfg)
    ∧ (exec i s = .next t → exec i (s.withApu (s.apu.withP1 p)) = .next u →
      u.apu = t.apu.withP1 u.apu.p1 ∧ u.mem = t.mem ∧ u.events = t.events ∧ u.memReads = t.memReads
      ∧ u.out.memAddr = t.out.memAddr ∧ u.cfg = t.cfg)

/-- An odd clock leaves the counters of the four half-rate timers, and the sequencers and the shift register
they drive, where they are, whatever frame tick falls on it (R75). -/
def Obligations.OddClocksHoldHalfRateTimers : Prop :=
  ∀ s t : State, exec .clk s = .next t → s.apu.phase = true →
    t.apu.p1.timerCounter = s.apu.p1.timerCounter ∧ t.apu.p1.dutyIndex = s.apu.p1.dutyIndex
    ∧ t.apu.p2.timerCounter = s.apu.p2.timerCounter ∧ t.apu.p2.dutyIndex = s.apu.p2.dutyIndex
    ∧ t.apu.tri.timerCounter = s.apu.tri.timerCounter ∧ t.apu.tri.sequenceIndex = s.apu.tri.sequenceIndex
    ∧ t.apu.noise.timerCounter = s.apu.noise.timerCounter
    ∧ t.apu.noise.shiftRegister = s.apu.noise.shiftRegister

/-- What a muted channel holds cannot be heard (R122): two blocks with the same enables that agree on every
enabled channel mix to the same sample. -/
def Obligations.MutedChannelsContributeNothing : Prop :=
  ∀ (c : Cfg) (a b : Apu), a.chanEnable = b.chanEnable →
    (a.chanEnable.p1 = true → a.p1 = b.p1) → (a.chanEnable.p2 = true → a.p2 = b.p2) →
    (a.chanEnable.tri = true → a.tri = b.tri) → (a.chanEnable.noise = true → a.noise = b.noise) →
    (a.chanEnable.dmc = true → a.dmc = b.dmc) → a.mix c = b.mix c

/-- Once the status register has disabled every channel, every sample is exactly zero until it is written
again, whatever else happens (R126 (b)). -/
def Obligations.DisabledBlockIsSilent : Prop :=
  ∀ (s t : State) (es : List Instr), exec (.wrStatus false false false false false) s = .next t →
    (∀ i ∈ es, i.mnemonic ≠ "WR_STATUS") → ∀ v ∈ samplesOf es t, v = 0

/-! ### Properties of runs -/

/-- Length counters (R73): after `n` half-frame ticks each has counted down by `n`, stopping at zero, if
not halted, and stands if halted. -/
def Obligations.LengthCountersCountDown : Prop :=
  ∀ (a : Apu) (n : Nat),
    ∀ f ∈ [fun b : Apu => b.p1.length, fun b => b.p2.length, fun b => b.tri.length, fun b => b.noise.length],
      ((f a).haltFlag = false → (f (times Apu.half n a)).value.toNat = (f a).value.toNat - n)
      ∧ ((f a).haltFlag = true → f (times Apu.half n a) = f a)

/-- Envelope decay (R79): after a start the decay counter has dropped by one for every `volume + 1` ticks;
without loop it then rests at 0, with loop it wraps to 15. -/
def Obligations.EnvelopeDecayTime : Prop :=
  ∀ (e : Envelope) (n : Nat),
    (n < 16 * (e.volume.toNat + 1) →
      (times Envelope.clock n e.start).decayCounter.toNat = 15 - n / (e.volume.toNat + 1))
    ∧ (e.loopFlag = false → 16 * (e.volume.toNat + 1) ≤ n →
      (times Envelope.clock n e.start).decayCounter = 0)
    ∧ (e.loopFlag = true → times Envelope.clock (16 * (e.volume.toNat + 1)) e.start = e.start)

/-- A sweep that is disabled, or whose shift count is 0, never changes the period, however many half-frame
ticks pass (R84 (a), (c)). -/
def Obligations.IdleSweepKeepsPeriod : Prop :=
  ∀ (a : Apu) (n : Nat),
    ((a.p1.sweep.enabled = false ∨ a.p1.sweep.shiftCount = 0) →
      (times Apu.half n a).p1.timerPeriod = a.p1.timerPeriod)
    ∧ ((a.p2.sweep.enabled = false ∨ a.p2.sweep.shiftCount = 0) →
      (times Apu.half n a).p2.timerPeriod = a.p2.timerPeriod)

/-- The triangle's reload flag (R97): after a control write with the halt bit clear, the next quarter-frame
tick reloads the linear counter and clears the flag, and the counter then runs down to zero; with the halt
bit set every tick reloads it. -/
def Obligations.LinearCounterReloadsOnce : Prop :=
  ∀ (t : Triangle) (r : BitVec 7) (n : Nat),
    ((times Triangle.linearClock (n + 1) (t.writeCtrl false r)).linearCounter.toNat = r.toNat - n
      ∧ (times Triangle.linearClock (n + 1) (t.writeCtrl false r)).linearControlFlag = false)
    ∧ ((times Triangle.linearClock (n + 1) (t.writeCtrl true r)).linearCounter = r
      ∧ (times Triangle.linearClock (n + 1) (t.writeCtrl true r)).linearControlFlag = true)

/-- The noise sequence lengths (conflict C1, vector V-N3): from the seed, mode 0 first returns after 32767
steps and mode 1 after 93. -/
def Obligations.NoiseSequenceLengths : Prop :=
  (times (lfsrStep false) 32767 1 = 1 ∧ ∀ n : Nat, 0 < n → n < 32767 → times (lfsrStep false) n 1 ≠ 1)
  ∧ (times (lfsrStep true) 93 1 = 1 ∧ ∀ n : Nat, 0 < n → n < 93 → times (lfsrStep true) n 1 ≠ 1)

/-- The 4-step sequence (R117, R120 (a)): from its start the sequencer counts `FS_D` clocks, leaves the
interrupt flag alone until the last, sets it there unless inhibited, and starts again. In 5-step mode no
number of clocks sets it. -/
def Obligations.FrameInterruptOncePerSequence : Prop :=
  (∀ s : State, s.cfg.Wf → s.apu.frame.mode = .fourStep → s.apu.frame.cycleCounter = 0 →
    (∀ n : Nat, n < s.cfg.fsD → ∃ t, clocks n s = .next t ∧ t.apu.frame.cycleCounter.toNat = n
      ∧ t.apu.frame.irqFlag = s.apu.frame.irqFlag)
    ∧ ∃ t, clocks s.cfg.fsD s = .next t ∧ t.apu.frame.cycleCounter = 0
      ∧ t.apu.frame.irqFlag = (s.apu.frame.irqFlag || !s.apu.frame.irqInhibit))
  ∧ ∀ (s : State) (n : Nat), s.apu.frame.mode = .fiveStep →
    ∃ t, clocks n s = .next t ∧ t.apu.frame.irqFlag = s.apu.frame.irqFlag

/-- The ticks of one sequence (R120 (b)): 4 quarter-frame and 2 half-frame ticks in 4-step mode, 5 and 2 in
5-step mode, counted on an envelope and a length counter. -/
def Obligations.TicksPerSequence : Prop :=
  ∀ s : State, s.cfg.Wf → s.apu.frame.cycleCounter = 0 →
    (s.apu.frame.mode = .fourStep → ∃ t, clocks s.cfg.fsD s = .next t
      ∧ t.apu.p1.env = times Envelope.clock 4 s.apu.p1.env
      ∧ t.apu.p1.length = times LengthCounter.clock 2 s.apu.p1.length)
    ∧ (s.apu.frame.mode = .fiveStep → ∃ t, clocks s.cfg.fsE s = .next t
      ∧ t.apu.p1.env = times Envelope.clock 5 s.apu.p1.env
      ∧ t.apu.p1.length = times LengthCounter.clock 2 s.apu.p1.length)

/-- The pulse frequency (R90): with the sweep disabled, and whatever else happens in the block, a pulse unit
whose counter is within its period ticks once in `2 * (timerPeriod + 1)` clocks and is back where it was after
`16 * (timerPeriod + 1)`; whatever its counter (a period lowered while it counts may leave it above), it ticks
once when the counter has run out, after `2 * (timerCounter + 1)` clocks, and then holds the period. -/
def Obligations.PulseWaveformPeriod : Prop :=
  ∀ (s : State),
    ∀ f ∈ [fun a : Apu => a.p1, fun a => a.p2],
      s.apu.phase = false → (f s.apu).sweep.enabled = false →
      (∃ t, clocks (2 * ((f s.apu).timerCounter.toNat + 1)) s = .next t
        ∧ (f t.apu).dutyIndex = (f s.apu).dutyIndex - 1
        ∧ (f t.apu).timerCounter = (f s.apu).timerPeriod
        ∧ (f t.apu).timerPeriod = (f s.apu).timerPeriod)
      ∧ ((f s.apu).timerCounter.toNat ≤ (f s.apu).timerPeriod.toNat →
        (∃ t, clocks (2 * ((f s.apu).timerPeriod.toNat + 1)) s = .next t
          ∧ (f t.apu).dutyIndex = (f s.apu).dutyIndex - 1
          ∧ (f t.apu).timerCounter = (f s.apu).timerCounter)
        ∧ (∃ t, clocks (16 * ((f s.apu).timerPeriod.toNat + 1)) s = .next t
          ∧ (f t.apu).dutyIndex = (f s.apu).dutyIndex
          ∧ (f t.apu).timerCounter = (f s.apu).timerCounter
          ∧ (f t.apu).timerPeriod = (f s.apu).timerPeriod))

/-- The triangle sequencer is held for as long as its length counter is zero (R96), however many clocks
pass: nothing but a length load lets it go. -/
def Obligations.TriangleHeldWhileLengthZero : Prop :=
  ∀ (s : State) (n : Nat), s.apu.tri.length.value = 0 →
    ∃ t, clocks n s = .next t ∧ t.apu.tri.sequenceIndex = s.apu.tri.sequenceIndex
      ∧ t.apu.tri.length.value = 0

/-- Samples are emitted without drift (R124): under every configuration, `n` clocks emit as many samples as
the accumulator says, so `CLOCK_RATE` clocks emit exactly `SAMPLE_RATE`. -/
def Obligations.SampleRateIsExact : Prop :=
  ∀ s : State, s.cfg.Wf → s.apu.sampleAcc.toNat < s.cfg.clockRate →
    (∀ n : Nat, ∃ t, clocks n s = .next t
      ∧ (samplesOf (List.replicate n .clk) s).length * s.cfg.clockRate + t.apu.sampleAcc.toNat
        = s.apu.sampleAcc.toNat + n * s.cfg.sampleRate)
    ∧ (samplesOf (List.replicate s.cfg.clockRate .clk) s).length = s.cfg.sampleRate

/-- A DMC with nothing left to play and no loop falls silent and its level stands still (the property T7),
at the latest when the bits it holds have been played. -/
def Obligations.IdleDmcFallsSilent : Prop :=
  ∀ s : State, s.cfg.Wf → s.apu.dmc.bytesRemaining = 0 → s.apu.dmc.loopFlag = false →
    ∃ level : BitVec 7, ∀ n : Nat,
      s.apu.dmc.timerCounter.toNat + 1
          + s.apu.dmc.bitsRemaining.toNat * s.cfg.dmcRate.get s.apu.dmc.rateIndex.toFin ≤ n →
      ∃ t, clocks n s = .next t ∧ t.apu.dmc.silenceFlag = true ∧ t.apu.dmc.outputLevel = level

/-- Enabling loads nothing and a load while disabled is ignored (R147), for each of the four channels with a
length counter and whatever the status byte's other bits: a length write before the status write leaves the
channel's counter at zero, and after it loads the counter, to a value that is not zero in the default table. -/
def Obligations.EnableBeforeLengthLoad : Prop :=
  ∀ (s : State) (x : BitVec 5) (h : BitVec 3) (b1 b2 bt bn bd : Bool),
    (s.apu.chanEnable.p1 = false → s.apu.p1.length.value = 0 → ∃ t,
      execList [.wrP1Hi x h, .wrStatus true b2 bt bn bd] s = .next t ∧ t.apu.p1.length.value = 0)
    ∧ (s.apu.chanEnable.p2 = false → s.apu.p2.length.value = 0 → ∃ t,
      execList [.wrP2Hi x h, .wrStatus b1 true bt bn bd] s = .next t ∧ t.apu.p2.length.value = 0)
    ∧ (s.apu.chanEnable.tri = false → s.apu.tri.length.value = 0 → ∃ t,
      execList [.wrTriHi x h, .wrStatus b1 b2 true bn bd] s = .next t ∧ t.apu.tri.length.value = 0)
    ∧ (s.apu.chanEnable.noise = false → s.apu.noise.length.value = 0 → ∃ t,
      execList [.wrNoiLen x, .wrStatus b1 b2 bt true bd] s = .next t ∧ t.apu.noise.length.value = 0)
    ∧ (∃ t, execList [.wrStatus true b2 bt bn bd, .wrP1Hi x h] s = .next t
      ∧ t.apu.p1.length.value = s.cfg.lengthTable.get x.toFin)
    ∧ (∃ t, execList [.wrStatus b1 true bt bn bd, .wrP2Hi x h] s = .next t
      ∧ t.apu.p2.length.value = s.cfg.lengthTable.get x.toFin)
    ∧ (∃ t, execList [.wrStatus b1 b2 true bn bd, .wrTriHi x h] s = .next t
      ∧ t.apu.tri.length.value = s.cfg.lengthTable.get x.toFin)
    ∧ (∃ t, execList [.wrStatus b1 b2 bt true bd, .wrNoiLen x] s = .next t
      ∧ t.apu.noise.length.value = s.cfg.lengthTable.get x.toFin)
    ∧ Config.ntsc.lengthTable.get x.toFin ≠ 0

/-! ### Invariants -/

/-- Reset meets the invariants of R41 and the ranges of R13, R15, R49 under every configuration that meets the
constraints, the two builds of R6 meet them, and the machine of the reset state is the default one (log 2). -/
def Obligations.ResetMeetsInvariants : Prop :=
  (∀ c : Cfg, c.Wf → Inv (State.resetWith c) ∧ Ranges (State.resetWith c))
  ∧ Config.ntsc.Wf ∧ Config.pal.Wf ∧ State.reset = State.resetWith Config.ntsc

/-- Every step keeps the invariants of R41, from every state that meets them, under whatever configuration the
state carries. -/
def Obligations.StepKeepsInvariants : Prop :=
  ∀ s t : State, Inv s → step s = .next t → Inv t

/-- Every step keeps the ranges of R13 and R15, under whatever configuration the state carries; where the bank
wraps as by default (log 11), every address a step presents to the sample memory lies in the bank, which is
0x8000..0xFFFF by default (R49). -/
def Obligations.StepKeepsRanges : Prop :=
  ∀ s t : State, Inv s → Ranges s → step s = .next t →
    Ranges t
    ∧ (s.events ≠ [] → ∀ a, t.out.memAddr = some a →
      (s.cfg.WrapsInBank → s.cfg.dmcWrapTo.toNat ≤ a.toNat) ∧ (s.cfg = Config.ntsc → 0x8000 ≤ a.toNat))

/-- The invariants of R41 hold under every configuration that meets the constraints: the machine of that
configuration has them at reset, every one of the 27 events keeps them, and none changes the configuration
(I3). -/
def Obligations.EveryConfigKeepsInvariants : Prop :=
  ∀ c : Cfg, c.Wf →
    (Inv (State.resetWith c) ∧ (State.resetWith c).cfg = c)
    ∧ ∀ (i : Instr) (s t : State), s.cfg = c → Inv s → exec i s = .next t → Inv t ∧ t.cfg = c
end

