-- ==== Sys2Proof/Laws/State.lean ====
section
/-! SUPPORT. One lemma per field per update of the state: what each named update of Machine/Ops.lean leaves and
what it writes. -/

namespace Sys2Proof.Machine

variable (a : Apu) (s : State)

@[simp] theorem Apu.withP1_p1 (x : Pulse) : (a.withP1 x).p1 = x := rfl
@[simp] theorem Apu.withP1_p2 (x : Pulse) : (a.withP1 x).p2 = a.p2 := rfl
@[simp] theorem Apu.withP1_tri (x : Pulse) : (a.withP1 x).tri = a.tri := rfl
@[simp] theorem Apu.withP1_noise (x : Pulse) : (a.withP1 x).noise = a.noise := rfl
@[simp] theorem Apu.withP1_dmc (x : Pulse) : (a.withP1 x).dmc = a.dmc := rfl
@[simp] theorem Apu.withP1_frame (x : Pulse) : (a.withP1 x).frame = a.frame := rfl
@[simp] theorem Apu.withP1_chanEnable (x : Pulse) : (a.withP1 x).chanEnable = a.chanEnable := rfl
@[simp] theorem Apu.withP1_phase (x : Pulse) : (a.withP1 x).phase = a.phase := rfl
@[simp] theorem Apu.withP1_sampleAcc (x : Pulse) : (a.withP1 x).sampleAcc = a.sampleAcc := rfl

@[simp] theorem Apu.withP2_p1 (x : Pulse) : (a.withP2 x).p1 = a.p1 := rfl
@[simp] theorem Apu.withP2_p2 (x : Pulse) : (a.withP2 x).p2 = x := rfl
@[simp] theorem Apu.withP2_tri (x : Pulse) : (a.withP2 x).tri = a.tri := rfl
@[simp] theorem Apu.withP2_noise (x : Pulse) : (a.withP2 x).noise = a.noise := rfl
@[simp] theorem Apu.withP2_dmc (x : Pulse) : (a.withP2 x).dmc = a.dmc := rfl
@[simp] theorem Apu.withP2_frame (x : Pulse) : (a.withP2 x).frame = a.frame := rfl
@[simp] theorem Apu.withP2_chanEnable (x : Pulse) : (a.withP2 x).chanEnable = a.chanEnable := rfl
@[simp] theorem Apu.withP2_phase (x : Pulse) : (a.withP2 x).phase = a.phase := rfl
@[simp] theorem Apu.withP2_sampleAcc (x : Pulse) : (a.withP2 x).sampleAcc = a.sampleAcc := rfl

@[simp] theorem Apu.withTri_p1 (x : Triangle) : (a.withTri x).p1 = a.p1 := rfl
@[simp] theorem Apu.withTri_p2 (x : Triangle) : (a.withTri x).p2 = a.p2 := rfl
@[simp] theorem Apu.withTri_tri (x : Triangle) : (a.withTri x).tri = x := rfl
@[simp] theorem Apu.withTri_noise (x : Triangle) : (a.withTri x).noise = a.noise := rfl
@[simp] theorem Apu.withTri_dmc (x : Triangle) : (a.withTri x).dmc = a.dmc := rfl
@[simp] theorem Apu.withTri_frame (x : Triangle) : (a.withTri x).frame = a.frame := rfl
@[simp] theorem Apu.withTri_chanEnable (x : Triangle) : (a.withTri x).chanEnable = a.chanEnable := rfl
@[simp] theorem Apu.withTri_phase (x : Triangle) : (a.withTri x).phase = a.phase := rfl
@[simp] theorem Apu.withTri_sampleAcc (x : Triangle) : (a.withTri x).sampleAcc = a.sampleAcc := rfl

@[simp] theorem Apu.withNoise_p1 (x : Noise) : (a.withNoise x).p1 = a.p1 := rfl
@[simp] theorem Apu.withNoise_p2 (x : Noise) : (a.withNoise x).p2 = a.p2 := rfl
@[simp] theorem Apu.withNoise_tri (x : Noise) : (a.withNoise x).tri = a.tri := rfl
@[simp] theorem Apu.withNoise_noise (x : Noise) : (a.withNoise x).noise = x := rfl
@[simp] theorem Apu.withNoise_dmc (x : Noise) : (a.withNoise x).dmc = a.dmc := rfl
@[simp] theorem Apu.withNoise_frame (x : Noise) : (a.withNoise x).frame = a.frame := rfl
@[simp] theorem Apu.withNoise_chanEnable (x : Noise) : (a.withNoise x).chanEnable = a.chanEnable := rfl
@[simp] theorem Apu.withNoise_phase (x : Noise) : (a.withNoise x).phase = a.phase := rfl
@[simp] theorem Apu.withNoise_sampleAcc (x : Noise) : (a.withNoise x).sampleAcc = a.sampleAcc := rfl

@[simp] theorem Apu.withDmc_p1 (x : Dmc) : (a.withDmc x).p1 = a.p1 := rfl
@[simp] theorem Apu.withDmc_p2 (x : Dmc) : (a.withDmc x).p2 = a.p2 := rfl
@[simp] theorem Apu.withDmc_tri (x : Dmc) : (a.withDmc x).tri = a.tri := rfl
@[simp] theorem Apu.withDmc_noise (x : Dmc) : (a.withDmc x).noise = a.noise := rfl
@[simp] theorem Apu.withDmc_dmc (x : Dmc) : (a.withDmc x).dmc = x := rfl
@[simp] theorem Apu.withDmc_frame (x : Dmc) : (a.withDmc x).frame = a.frame := rfl
@[simp] theorem Apu.withDmc_chanEnable (x : Dmc) : (a.withDmc x).chanEnable = a.chanEnable := rfl
@[simp] theorem Apu.withDmc_phase (x : Dmc) : (a.withDmc x).phase = a.phase := rfl
@[simp] theorem Apu.withDmc_sampleAcc (x : Dmc) : (a.withDmc x).sampleAcc = a.sampleAcc := rfl

@[simp] theorem Apu.withFrame_p1 (x : FrameSequencer) : (a.withFrame x).p1 = a.p1 := rfl
@[simp] theorem Apu.withFrame_p2 (x : FrameSequencer) : (a.withFrame x).p2 = a.p2 := rfl
@[simp] theorem Apu.withFrame_tri (x : FrameSequencer) : (a.withFrame x).tri = a.tri := rfl
@[simp] theorem Apu.withFrame_noise (x : FrameSequencer) : (a.withFrame x).noise = a.noise := rfl
@[simp] theorem Apu.withFrame_dmc (x : FrameSequencer) : (a.withFrame x).dmc = a.dmc := rfl
@[simp] theorem Apu.withFrame_frame (x : FrameSequencer) : (a.withFrame x).frame = x := rfl
@[simp] theorem Apu.withFrame_chanEnable (x : FrameSequencer) : (a.withFrame x).chanEnable = a.chanEnable := rfl
@[simp] theorem Apu.withFrame_phase (x : FrameSequencer) : (a.withFrame x).phase = a.phase := rfl
@[simp] theorem Apu.withFrame_sampleAcc (x : FrameSequencer) : (a.withFrame x).sampleAcc = a.sampleAcc := rfl

@[simp] theorem Apu.withChanEnable_p1 (x : ChanEnable) : (a.withChanEnable x).p1 = a.p1 := rfl
@[simp] theorem Apu.withChanEnable_p2 (x : ChanEnable) : (a.withChanEnable x).p2 = a.p2 := rfl
@[simp] theorem Apu.withChanEnable_tri (x : ChanEnable) : (a.withChanEnable x).tri = a.tri := rfl
@[simp] theorem Apu.withChanEnable_noise (x : ChanEnable) : (a.withChanEnable x).noise = a.noise := rfl
@[simp] theorem Apu.withChanEnable_dmc (x : ChanEnable) : (a.withChanEnable x).dmc = a.dmc := rfl
@[simp] theorem Apu.withChanEnable_frame (x : ChanEnable) : (a.withChanEnable x).frame = a.frame := rfl
@[simp] theorem Apu.withChanEnable_chanEnable (x : ChanEnable) : (a.withChanEnable x).chanEnable = x := rfl
@[simp] theorem Apu.withChanEnable_phase (x : ChanEnable) : (a.withChanEnable x).phase = a.phase := rfl
@[simp] theorem Apu.withChanEnable_sampleAcc (x : ChanEnable) : (a.withChanEnable x).sampleAcc = a.sampleAcc := rfl

@[simp] theorem Apu.withPhase_p1 (x : Bool) : (a.withPhase x).p1 = a.p1 := rfl
@[simp] theorem Apu.withPhase_p2 (x : Bool) : (a.withPhase x).p2 = a.p2 := rfl
@[simp] theorem Apu.withPhase_tri (x : Bool) : (a.withPhase x).tri = a.tri := rfl
@[simp] theorem Apu.withPhase_noise (x : Bool) : (a.withPhase x).noise = a.noise := rfl
@[simp] theorem Apu.withPhase_dmc (x : Bool) : (a.withPhase x).dmc = a.dmc := rfl
@[simp] theorem Apu.withPhase_frame (x : Bool) : (a.withPhase x).frame = a.frame := rfl
@[simp] theorem Apu.withPhase_chanEnable (x : Bool) : (a.withPhase x).chanEnable = a.chanEnable := rfl
@[simp] theorem Apu.withPhase_phase (x : Bool) : (a.withPhase x).phase = x := rfl
@[simp] theorem Apu.withPhase_sampleAcc (x : Bool) : (a.withPhase x).sampleAcc = a.sampleAcc := rfl

@[simp] theorem Apu.withSampleAcc_p1 (x : BitVec 32) : (a.withSampleAcc x).p1 = a.p1 := rfl
@[simp] theorem Apu.withSampleAcc_p2 (x : BitVec 32) : (a.withSampleAcc x).p2 = a.p2 := rfl
@[simp] theorem Apu.withSampleAcc_tri (x : BitVec 32) : (a.withSampleAcc x).tri = a.tri := rfl
@[simp] theorem Apu.withSampleAcc_noise (x : BitVec 32) : (a.withSampleAcc x).noise = a.noise := rfl
@[simp] theorem Apu.withSampleAcc_dmc (x : BitVec 32) : (a.withSampleAcc x).dmc = a.dmc := rfl
@[simp] theorem Apu.withSampleAcc_frame (x : BitVec 32) : (a.withSampleAcc x).frame = a.frame := rfl
@[simp] theorem Apu.withSampleAcc_chanEnable (x : BitVec 32) : (a.withSampleAcc x).chanEnable = a.chanEnable := rfl
@[simp] theorem Apu.withSampleAcc_phase (x : BitVec 32) : (a.withSampleAcc x).phase = a.phase := rfl
@[simp] theorem Apu.withSampleAcc_sampleAcc (x : BitVec 32) : (a.withSampleAcc x).sampleAcc = x := rfl

@[simp] theorem State.withApu_cfg (x : Apu) : (s.withApu x).cfg = s.cfg := rfl
@[simp] theorem State.withApu_apu (x : Apu) : (s.withApu x).apu = x := rfl
@[simp] theorem State.withApu_out (x : Apu) : (s.withApu x).out = s.out := rfl
@[simp] theorem State.withApu_events (x : Apu) : (s.withApu x).events = s.events := rfl
@[simp] theorem State.withApu_mem (x : Apu) : (s.withApu x).mem = s.mem := rfl
@[simp] theorem State.withApu_memReads (x : Apu) : (s.withApu x).memReads = s.memReads := rfl

@[simp] theorem State.update_cfg (x : Apu) : (s.update x).cfg = s.cfg := rfl
@[simp] theorem State.update_apu (x : Apu) : (s.update x).apu = x := rfl
@[simp] theorem State.update_out (x : Apu) : (s.update x).out = Outputs.none := rfl
@[simp] theorem State.update_events (x : Apu) : (s.update x).events = s.events := rfl
@[simp] theorem State.update_mem (x : Apu) : (s.update x).mem = s.mem := rfl
@[simp] theorem State.update_memReads (x : Apu) : (s.update x).memReads = s.memReads := rfl

@[simp] theorem State.answer_cfg (x : Apu) (b : Byte) : (s.answer x b).cfg = s.cfg := rfl
@[simp] theorem State.answer_apu (x : Apu) (b : Byte) : (s.answer x b).apu = x := rfl
@[simp] theorem State.answer_out (x : Apu) (b : Byte) : (s.answer x b).out = { Outputs.none with readByte := some b } := rfl
@[simp] theorem State.answer_events (x : Apu) (b : Byte) : (s.answer x b).events = s.events := rfl
@[simp] theorem State.answer_mem (x : Apu) (b : Byte) : (s.answer x b).mem = s.mem := rfl
@[simp] theorem State.answer_memReads (x : Apu) (b : Byte) : (s.answer x b).memReads = s.memReads := rfl

@[simp] theorem State.emit_cfg (v : Sample) : (s.emit v).cfg = s.cfg := rfl
@[simp] theorem State.emit_apu (v : Sample) : (s.emit v).apu = s.apu := rfl
@[simp] theorem State.emit_out (v : Sample) : (s.emit v).out = { s.out with sample := some v } := rfl
@[simp] theorem State.emit_events (v : Sample) : (s.emit v).events = s.events := rfl
@[simp] theorem State.emit_mem (v : Sample) : (s.emit v).mem = s.mem := rfl
@[simp] theorem State.emit_memReads (v : Sample) : (s.emit v).memReads = s.memReads := rfl

@[simp] theorem State.presentAddr_cfg (x : Addr) : (s.presentAddr x).cfg = s.cfg := rfl
@[simp] theorem State.presentAddr_apu (x : Addr) : (s.presentAddr x).apu = s.apu := rfl
@[simp] theorem State.presentAddr_out (x : Addr) : (s.presentAddr x).out = { s.out with memAddr := some x } := rfl
@[simp] theorem State.presentAddr_events (x : Addr) : (s.presentAddr x).events = s.events := rfl
@[simp] theorem State.presentAddr_mem (x : Addr) : (s.presentAddr x).mem = s.mem := rfl
@[simp] theorem State.presentAddr_memReads (x : Addr) : (s.presentAddr x).memReads = s.memReads + 1 := rfl

@[simp] theorem State.withSampleByte_cfg (x : Addr) (v : Byte) : (s.withSampleByte x v).cfg = s.cfg := rfl
@[simp] theorem State.withSampleByte_apu (x : Addr) (v : Byte) : (s.withSampleByte x v).apu = s.apu := rfl
@[simp] theorem State.withSampleByte_out (x : Addr) (v : Byte) : (s.withSampleByte x v).out = s.out := rfl
@[simp] theorem State.withSampleByte_events (x : Addr) (v : Byte) : (s.withSampleByte x v).events = s.events := rfl
@[simp] theorem State.withSampleByte_mem (x : Addr) (v : Byte) : (s.withSampleByte x v).mem = Memory.put s.mem x.toNat v := rfl
@[simp] theorem State.withSampleByte_memReads (x : Addr) (v : Byte) : (s.withSampleByte x v).memReads = s.memReads := rfl

@[simp] theorem State.withDmc_cfg (d : Dmc) : (s.withDmc d).cfg = s.cfg := rfl
@[simp] theorem State.withDmc_apu (d : Dmc) : (s.withDmc d).apu = s.apu.withDmc d := rfl
@[simp] theorem State.withDmc_out (d : Dmc) : (s.withDmc d).out = s.out := rfl
@[simp] theorem State.withDmc_events (d : Dmc) : (s.withDmc d).events = s.events := rfl
@[simp] theorem State.withDmc_mem (d : Dmc) : (s.withDmc d).mem = s.mem := rfl
@[simp] theorem State.withDmc_memReads (d : Dmc) : (s.withDmc d).memReads = s.memReads := rfl

@[simp] theorem State.resetWith_cfg (c : Cfg) : (State.resetWith c).cfg = c := rfl
@[simp] theorem State.resetWith_apu (c : Cfg) : (State.resetWith c).apu = Apu.reset c := rfl
@[simp] theorem State.reset_cfg : State.reset.cfg = Config.ntsc := rfl

@[simp] theorem Outputs.none_readByte : Outputs.none.readByte = .none := rfl
@[simp] theorem Outputs.none_sample : Outputs.none.sample = .none := rfl
@[simp] theorem Outputs.none_memAddr : Outputs.none.memAddr = .none := rfl

@[simp] theorem Apu.quarter_p1 : a.quarter.p1 = a.p1.quarterFrame := rfl
@[simp] theorem Apu.quarter_p2 : a.quarter.p2 = a.p2.quarterFrame := rfl
@[simp] theorem Apu.quarter_tri : a.quarter.tri = a.tri.linearClock := rfl
@[simp] theorem Apu.quarter_noise : a.quarter.noise = { a.noise with env := a.noise.env.clock } := rfl
@[simp] theorem Apu.quarter_dmc : a.quarter.dmc = a.dmc := rfl
@[simp] theorem Apu.quarter_frame : a.quarter.frame = a.frame := rfl
@[simp] theorem Apu.quarter_chanEnable : a.quarter.chanEnable = a.chanEnable := rfl
@[simp] theorem Apu.quarter_phase : a.quarter.phase = a.phase := rfl
@[simp] theorem Apu.quarter_sampleAcc : a.quarter.sampleAcc = a.sampleAcc := rfl

@[simp] theorem Apu.half_p1 : a.half.p1 = a.p1.halfFrame .unit1 := rfl
@[simp] theorem Apu.half_p2 : a.half.p2 = a.p2.halfFrame .unit2 := rfl
@[simp] theorem Apu.half_tri : a.half.tri = { a.tri with length := a.tri.length.clock } := rfl
@[simp] theorem Apu.half_noise : a.half.noise = { a.noise with length := a.noise.length.clock } := rfl
@[simp] theorem Apu.half_dmc : a.half.dmc = a.dmc := rfl
@[simp] theorem Apu.half_frame : a.half.frame = a.frame := rfl
@[simp] theorem Apu.half_chanEnable : a.half.chanEnable = a.chanEnable := rfl
@[simp] theorem Apu.half_phase : a.half.phase = a.phase := rfl
@[simp] theorem Apu.half_sampleAcc : a.half.sampleAcc = a.sampleAcc := rfl

end Sys2Proof.Machine
end

