-- ==== Sys2Proof/Laws/Ops.lean ====
section
/-! SUPPORT. What each shared operation does, once: the timer, the length counter, the envelope, the sweep
divider, and the two frame ticks, field by field. -/

namespace Sys2Proof.Machine

/-! ### Timer (R76) -/

theorem timerClock_zero {w : Nat} {k : BitVec w} (h : k = 0#w) (r : BitVec w) :
    timerClock k r = (r, true) := by
  simp [timerClock, h]

theorem timerClock_ne {w : Nat} {k : BitVec w} (h : k ≠ 0#w) (r : BitVec w) :
    timerClock k r = (k - 1#w, false) := by
  simp [timerClock, h]

/-- A timer tick happens exactly when the counter is found at zero. -/
theorem timerClock_tick {w : Nat} (k r : BitVec w) : (timerClock k r).2 = decide (k = 0#w) := by
  unfold timerClock; split <;> simp [*]

/-- A counter that is not reloaded goes down by one, as a number. -/
theorem timerClock_toNat {w : Nat} (k r : BitVec w) :
    (timerClock k r).1.toNat = if k = 0#w then r.toNat else k.toNat - 1 := by
  unfold timerClock
  split
  · rfl
  · next h =>
    have hk : k.toNat ≠ 0 := fun e => h (BitVec.eq_of_toNat_eq (by simpa using e))
    have hw : 0 < w := by
      rcases Nat.eq_zero_or_pos w with rfl | hw
      · exact absurd (BitVec.eq_of_toNat_eq (by have := k.isLt; simp at this ⊢; exact this)) h
      · exact hw
    have h1 : (1#w).toNat = 1 := by simpa using Nat.one_mod_two_pow_eq_one.mpr hw
    rw [BitVec.toNat_sub_of_le (by rw [BitVec.le_def, h1]; omega), h1]

/-! ### Length counter (R72, R73) -/

@[simp] theorem LengthCounter.clock_haltFlag (l : LengthCounter) : l.clock.haltFlag = l.haltFlag := by
  unfold LengthCounter.clock; split <;> rfl

/-- One half-frame tick: down by one and never below zero, unless halted. -/
theorem LengthCounter.clock_value_toNat (l : LengthCounter) :
    l.clock.value.toNat = if l.haltFlag = true then l.value.toNat else l.value.toNat - 1 := by
  unfold LengthCounter.clock
  cases h : l.haltFlag
  · by_cases hv : l.value = 0
    · simp [hv]
    · have : l.value.toNat ≠ 0 := fun e => hv (BitVec.eq_of_toNat_eq (by simpa using e))
      simp only [hv, ne_eq, not_false_eq_true, and_self, if_true, Bool.false_eq_true, if_false]
      bv_omega
  · simp

/-- A counter at zero stays at zero. -/
theorem LengthCounter.clock_of_zero {l : LengthCounter} (h : l.value = 0) : l.clock = l := by
  simp [LengthCounter.clock, h]

@[simp] theorem LengthCounter.load_haltFlag (c : Cfg) (l : LengthCounter) (b : Bool) (i : BitVec 5) :
    (l.load c b i).haltFlag = l.haltFlag := by
  unfold LengthCounter.load; split <;> rfl

/-- A disabled channel's counter is not loaded. -/
@[simp] theorem LengthCounter.load_disabled (c : Cfg) (l : LengthCounter) (i : BitVec 5) :
    l.load c false i = l := rfl

@[simp] theorem LengthCounter.load_enabled (c : Cfg) (l : LengthCounter) (i : BitVec 5) :
    l.load c true i = { l with value := c.lengthTable.get i.toFin } := rfl

@[simp] theorem LengthCounter.gate_off (l : LengthCounter) : l.gate false = { l with value := 0 } := rfl

@[simp] theorem LengthCounter.gate_on (l : LengthCounter) : l.gate true = l := rfl

/-! ### Envelope (R78, R79) -/

@[simp] theorem Envelope.write_eq (e : Envelope) (l k : Bool) (v : BitVec 4) :
    e.write l k v = ⟨l, k, v, 15, v⟩ := rfl

@[simp] theorem Envelope.clock_loopFlag (e : Envelope) : e.clock.loopFlag = e.loopFlag := by
  unfold Envelope.clock; split <;> rfl

@[simp] theorem Envelope.clock_constantFlag (e : Envelope) : e.clock.constantFlag = e.constantFlag := by
  unfold Envelope.clock; split <;> rfl

@[simp] theorem Envelope.clock_volume (e : Envelope) : e.clock.volume = e.volume := by
  unfold Envelope.clock; split <;> rfl

/-- The divider reloads at zero and is decremented otherwise. -/
theorem Envelope.clock_divider (e : Envelope) :
    e.clock.divider = if e.divider = 0 then e.volume else e.divider - 1 := by
  unfold Envelope.clock; split <;> rfl

/-- The decay counter moves only when the divider reloads. -/
theorem Envelope.clock_decayCounter (e : Envelope) :
    e.clock.decayCounter = if e.divider = 0 then e.decay else e.decayCounter := by
  unfold Envelope.clock; split <;> rfl

/-! ### Sweep (R83) -/

@[simp] theorem Sweep.clockDivider_enabled (w : Sweep) : w.clockDivider.enabled = w.enabled := by
  unfold Sweep.clockDivider; split <;> rfl

@[simp] theorem Sweep.clockDivider_shiftCount (w : Sweep) : w.clockDivider.shiftCount = w.shiftCount := by
  unfold Sweep.clockDivider; split <;> rfl

@[simp] theorem Sweep.clockDivider_negate (w : Sweep) : w.clockDivider.negate = w.negate := by
  unfold Sweep.clockDivider; split <;> rfl

@[simp] theorem Sweep.clockDivider_period (w : Sweep) : w.clockDivider.period = w.period := by
  unfold Sweep.clockDivider; split <;> rfl

/-- A half-frame tick leaves no reload pending. -/
@[simp] theorem Sweep.clockDivider_reloadPending (w : Sweep) : w.clockDivider.reloadPending = false := by
  unfold Sweep.clockDivider
  split
  · rfl
  · next h => exact Bool.eq_false_iff.mpr fun e => h (.inr e)

/-- A sweep that is disabled or whose shift count is zero leaves the period. -/
theorem Pulse.sweptPeriod_of_idle (u : PulseUnit) {p : Pulse}
    (h : p.sweep.enabled = false ∨ p.sweep.shiftCount = 0) : p.sweptPeriod u = p.timerPeriod := by
  unfold Pulse.sweptPeriod
  rcases h with h | h <;> simp [h]

/-! ### What the two frame ticks leave of a pulse channel -/

section
variable (u : PulseUnit) (p : Pulse)

@[simp] theorem Pulse.quarterFrame_timerPeriod : p.quarterFrame.timerPeriod = p.timerPeriod := rfl
@[simp] theorem Pulse.quarterFrame_timerCounter : p.quarterFrame.timerCounter = p.timerCounter := rfl
@[simp] theorem Pulse.quarterFrame_dutyIndex : p.quarterFrame.dutyIndex = p.dutyIndex := rfl
@[simp] theorem Pulse.quarterFrame_dutySelect : p.quarterFrame.dutySelect = p.dutySelect := rfl
@[simp] theorem Pulse.quarterFrame_env : p.quarterFrame.env = p.env.clock := rfl
@[simp] theorem Pulse.quarterFrame_sweep : p.quarterFrame.sweep = p.sweep := rfl
@[simp] theorem Pulse.quarterFrame_length : p.quarterFrame.length = p.length := rfl

@[simp] theorem Pulse.halfFrame_timerPeriod : (p.halfFrame u).timerPeriod = p.sweptPeriod u := rfl
@[simp] theorem Pulse.halfFrame_timerCounter : (p.halfFrame u).timerCounter = p.timerCounter := rfl
@[simp] theorem Pulse.halfFrame_dutyIndex : (p.halfFrame u).dutyIndex = p.dutyIndex := rfl
@[simp] theorem Pulse.halfFrame_dutySelect : (p.halfFrame u).dutySelect = p.dutySelect := rfl
@[simp] theorem Pulse.halfFrame_env : (p.halfFrame u).env = p.env := rfl
@[simp] theorem Pulse.halfFrame_sweep : (p.halfFrame u).sweep = p.sweep.clockDivider := rfl
@[simp] theorem Pulse.halfFrame_length : (p.halfFrame u).length = p.length.clock := rfl

@[simp] theorem Pulse.timerTick_timerPeriod : p.timerTick.timerPeriod = p.timerPeriod := rfl
@[simp] theorem Pulse.timerTick_dutySelect : p.timerTick.dutySelect = p.dutySelect := rfl
@[simp] theorem Pulse.timerTick_env : p.timerTick.env = p.env := rfl
@[simp] theorem Pulse.timerTick_sweep : p.timerTick.sweep = p.sweep := rfl
@[simp] theorem Pulse.timerTick_length : p.timerTick.length = p.length := rfl

@[simp] theorem Triangle.timerTick_length (t : Triangle) : t.timerTick.length = t.length := rfl
@[simp] theorem Triangle.linearClock_length (t : Triangle) : t.linearClock.length = t.length := rfl
@[simp] theorem Noise.timerTick_length (c : Cfg) (n : Noise) : (n.timerTick c).length = n.length := rfl
@[simp] theorem Noise.timerTick_env (c : Cfg) (n : Noise) : (n.timerTick c).env = n.env := rfl

end

/-! ### Frame sequencer (R117) -/

/-- The block with the cycle counter advanced, before any tick. -/
def Apu.counted (a : Apu) : Apu := a.withFrame { a.frame with cycleCounter := a.frame.cycleCounter + 1 }

@[simp] theorem Apu.counted_p1 (a : Apu) : a.counted.p1 = a.p1 := rfl
@[simp] theorem Apu.counted_p2 (a : Apu) : a.counted.p2 = a.p2 := rfl
@[simp] theorem Apu.counted_tri (a : Apu) : a.counted.tri = a.tri := rfl
@[simp] theorem Apu.counted_noise (a : Apu) : a.counted.noise = a.noise := rfl
@[simp] theorem Apu.counted_dmc (a : Apu) : a.counted.dmc = a.dmc := rfl
@[simp] theorem Apu.counted_chanEnable (a : Apu) : a.counted.chanEnable = a.chanEnable := rfl
@[simp] theorem Apu.counted_phase (a : Apu) : a.counted.phase = a.phase := rfl
@[simp] theorem Apu.counted_sampleAcc (a : Apu) : a.counted.sampleAcc = a.sampleAcc := rfl

/-- Everything the sequencer clock can do: no tick, a quarter-frame tick, or a quarter- and a half-frame tick
with the sequence going on or ending, according to the mode and the count reached. -/
theorem Apu.fsClock_cases (c : Cfg) (a : Apu) :
    a.fsClock c = a.counted
    ∨ a.fsClock c = a.counted.quarter
    ∨ a.fsClock c = a.counted.quarter.half
    ∨ (a.frame.mode = .fourStep ∧ (a.frame.cycleCounter + 1).toNat = c.fsD
      ∧ a.fsClock c = a.counted.quarter.half.withFrame
          { a.frame with cycleCounter := 0, irqFlag := a.frame.irqFlag || !a.frame.irqInhibit })
    ∨ (a.frame.mode = .fiveStep ∧ (a.frame.cycleCounter + 1).toNat = c.fsE
      ∧ a.fsClock c = a.counted.quarter.half.withFrame { a.frame with cycleCounter := 0 }) := by
  have e : a.fsClock c = match a.frame.mode with
      | .fourStep => a.counted.fourStepAt c (a.frame.cycleCounter + 1).toNat
      | .fiveStep => a.counted.fiveStepAt c (a.frame.cycleCounter + 1).toNat := rfl
  rw [e]
  split
  · next h =>
    unfold Apu.fourStepAt
    split
    · exact .inr (.inl rfl)
    split
    · exact .inr (.inr (.inl rfl))
    split
    · exact .inr (.inl rfl)
    split
    · next hd => exact .inr (.inr (.inr (.inl ⟨h, hd, rfl⟩)))
    · exact .inl rfl
  · next h =>
    unfold Apu.fiveStepAt
    split
    · exact .inr (.inl rfl)
    split
    · exact .inr (.inr (.inl rfl))
    split
    · exact .inr (.inl rfl)
    split
    · exact .inr (.inl rfl)
    split
    · next he => exact .inr (.inr (.inr (.inr ⟨h, he, rfl⟩)))
    · exact .inl rfl

@[simp] theorem Apu.fsClock_dmc (c : Cfg) (a : Apu) : (a.fsClock c).dmc = a.dmc := by
  rcases a.fsClock_cases c with h | h | h | ⟨_, _, h⟩ | ⟨_, _, h⟩ <;> simp [h]

@[simp] theorem Apu.fsClock_chanEnable (c : Cfg) (a : Apu) : (a.fsClock c).chanEnable = a.chanEnable := by
  rcases a.fsClock_cases c with h | h | h | ⟨_, _, h⟩ | ⟨_, _, h⟩ <;> simp [h]

@[simp] theorem Apu.fsClock_phase (c : Cfg) (a : Apu) : (a.fsClock c).phase = a.phase := by
  rcases a.fsClock_cases c with h | h | h | ⟨_, _, h⟩ | ⟨_, _, h⟩ <;> simp [h]

@[simp] theorem Apu.fsClock_sampleAcc (c : Cfg) (a : Apu) : (a.fsClock c).sampleAcc = a.sampleAcc := by
  rcases a.fsClock_cases c with h | h | h | ⟨_, _, h⟩ | ⟨_, _, h⟩ <;> simp [h]

@[simp] theorem Apu.fsClock_mode (c : Cfg) (a : Apu) : (a.fsClock c).frame.mode = a.frame.mode := by
  rcases a.fsClock_cases c with h | h | h | ⟨_, _, h⟩ | ⟨_, _, h⟩ <;> simp [h, Apu.counted]

end Sys2Proof.Machine
end

