-- ==== Sys2Proof/Laws/Clock.lean ====
section
/-! SUPPORT. What one `CLK` does, part by part: the half-rate timers, the DMC, the sample clock, and the
whole event. -/

namespace Sys2Proof.Machine

variable (c : Cfg) (a : Apu) (s : State)

/-! ### Half-rate timers (R75) -/

@[simp] theorem Apu.halfRateTimers_dmc : (a.halfRateTimers c).dmc = a.dmc := by
  unfold Apu.halfRateTimers; split <;> rfl

@[simp] theorem Apu.halfRateTimers_frame : (a.halfRateTimers c).frame = a.frame := by
  unfold Apu.halfRateTimers; split <;> rfl

@[simp] theorem Apu.halfRateTimers_chanEnable : (a.halfRateTimers c).chanEnable = a.chanEnable := by
  unfold Apu.halfRateTimers; split <;> rfl

@[simp] theorem Apu.halfRateTimers_phase : (a.halfRateTimers c).phase = a.phase := by
  unfold Apu.halfRateTimers; split <;> rfl

@[simp] theorem Apu.halfRateTimers_sampleAcc : (a.halfRateTimers c).sampleAcc = a.sampleAcc := by
  unfold Apu.halfRateTimers; split <;> rfl

theorem Apu.halfRateTimers_p1 :
    (a.halfRateTimers c).p1 = if a.phase = false then a.p1.timerTick else a.p1 := by
  unfold Apu.halfRateTimers; cases a.phase <;> rfl

theorem Apu.halfRateTimers_p2 :
    (a.halfRateTimers c).p2 = if a.phase = false then a.p2.timerTick else a.p2 := by
  unfold Apu.halfRateTimers; cases a.phase <;> rfl

theorem Apu.halfRateTimers_tri :
    (a.halfRateTimers c).tri = if a.phase = false then a.tri.timerTick else a.tri := by
  unfold Apu.halfRateTimers; cases a.phase <;> rfl

theorem Apu.halfRateTimers_noise :
    (a.halfRateTimers c).noise = if a.phase = false then a.noise.timerTick c else a.noise := by
  unfold Apu.halfRateTimers; cases a.phase <;> rfl

/-! ### DMC (R110 to R112) -/

/-- Everything the refill step can do: nothing, silence, or one fetch; a fetch and silence are of the DMC
after the loop clause. -/
theorem dmcRefill_cases :
    (s.apu.dmc.bitsRemaining ≠ 0 ∧ dmcRefill c s = s)
    ∨ (s.apu.dmc.bitsRemaining = 0 ∧ (s.apu.dmc.loopRestart s.apu.chanEnable.dmc).bytesRemaining = 0
      ∧ dmcRefill c s = s.withDmc (s.apu.dmc.loopRestart s.apu.chanEnable.dmc).starve)
    ∨ (s.apu.dmc.bitsRemaining = 0 ∧ (s.apu.dmc.loopRestart s.apu.chanEnable.dmc).bytesRemaining ≠ 0
      ∧ dmcRefill c s =
        (s.withDmc ((s.apu.dmc.loopRestart s.apu.chanEnable.dmc).fetch c
          (s.memByte (s.apu.dmc.loopRestart s.apu.chanEnable.dmc).currentAddress))).presentAddr
          (s.apu.dmc.loopRestart s.apu.chanEnable.dmc).currentAddress) := by
  unfold dmcRefill
  by_cases hb : s.apu.dmc.bitsRemaining = 0
  · rw [if_pos hb]
    by_cases hr : (s.apu.dmc.loopRestart s.apu.chanEnable.dmc).bytesRemaining = 0
    · exact .inr (.inl ⟨hb, hr, if_pos hr⟩)
    · exact .inr (.inr ⟨hb, hr, if_neg hr⟩)
  · rw [if_neg hb]; exact .inl ⟨hb, rfl⟩

/-- The refill step changes the DMC, the read count and the presented address only. -/
theorem dmcRefill_frame : ∃ d n o, dmcRefill c s =
    { s.withDmc d with memReads := n, out := { s.out with memAddr := o } } := by
  rcases dmcRefill_cases c s with ⟨_, h⟩ | ⟨_, _, h⟩ | ⟨_, _, h⟩
  · exact ⟨s.apu.dmc, s.memReads, s.out.memAddr, h⟩
  · exact ⟨(s.apu.dmc.loopRestart s.apu.chanEnable.dmc).starve, s.memReads, s.out.memAddr, h⟩
  · exact ⟨(s.apu.dmc.loopRestart s.apu.chanEnable.dmc).fetch c
      (s.memByte (s.apu.dmc.loopRestart s.apu.chanEnable.dmc).currentAddress), s.memReads + 1, some _, h⟩

/-- So does the DMC timer clock. -/
theorem dmcTimerClock_frame : ∃ d n o, dmcTimerClock c s =
    { s.withDmc d with memReads := n, out := { s.out with memAddr := o } } := by
  unfold dmcTimerClock
  by_cases h : (timerClock s.apu.dmc.timerCounter (dmcReload c s.apu.dmc.rateIndex)).2 = true
  · obtain ⟨d, n, o, e⟩ := dmcRefill_frame c
      (s.withDmc { s.apu.dmc with
        timerCounter := (timerClock s.apu.dmc.timerCounter (dmcReload c s.apu.dmc.rateIndex)).1 })
    exact ⟨d.outputStep, n, o, by simp only [h, if_true, e]; rfl⟩
  · exact ⟨{ s.apu.dmc with
      timerCounter := (timerClock s.apu.dmc.timerCounter (dmcReload c s.apu.dmc.rateIndex)).1 },
      s.memReads, s.out.memAddr, by simp only [h]; rfl⟩

/-- Between ticks the DMC timer counts down and nothing else happens. -/
theorem dmcTimerClock_of_ne (h : s.apu.dmc.timerCounter ≠ 0) : dmcTimerClock c s =
    s.withDmc { s.apu.dmc with timerCounter := s.apu.dmc.timerCounter - 1 } := by
  unfold dmcTimerClock; rw [timerClock_ne h]; rfl

/-- On a tick the refill step runs, then the output step. -/
theorem dmcTimerClock_of_zero (h : s.apu.dmc.timerCounter = 0) : dmcTimerClock c s =
    (dmcRefill c (s.withDmc { s.apu.dmc with timerCounter := dmcReload c s.apu.dmc.rateIndex })).withDmc
      (dmcRefill c (s.withDmc { s.apu.dmc with
        timerCounter := dmcReload c s.apu.dmc.rateIndex })).apu.dmc.outputStep := by
  unfold dmcTimerClock; rw [timerClock_zero h]; rfl

@[simp] theorem dmcTimerClock_cfg : (dmcTimerClock c s).cfg = s.cfg := by
  obtain ⟨d, n, o, h⟩ := dmcTimerClock_frame c s; simp [h]

@[simp] theorem dmcTimerClock_p1 : (dmcTimerClock c s).apu.p1 = s.apu.p1 := by
  obtain ⟨d, n, o, h⟩ := dmcTimerClock_frame c s; simp [h]

@[simp] theorem dmcTimerClock_p2 : (dmcTimerClock c s).apu.p2 = s.apu.p2 := by
  obtain ⟨d, n, o, h⟩ := dmcTimerClock_frame c s; simp [h]

@[simp] theorem dmcTimerClock_tri : (dmcTimerClock c s).apu.tri = s.apu.tri := by
  obtain ⟨d, n, o, h⟩ := dmcTimerClock_frame c s; simp [h]

@[simp] theorem dmcTimerClock_noise : (dmcTimerClock c s).apu.noise = s.apu.noise := by
  obtain ⟨d, n, o, h⟩ := dmcTimerClock_frame c s; simp [h]

@[simp] theorem dmcTimerClock_apu_frame : (dmcTimerClock c s).apu.frame = s.apu.frame := by
  obtain ⟨d, n, o, h⟩ := dmcTimerClock_frame c s; simp [h]

@[simp] theorem dmcTimerClock_chanEnable : (dmcTimerClock c s).apu.chanEnable = s.apu.chanEnable := by
  obtain ⟨d, n, o, h⟩ := dmcTimerClock_frame c s; simp [h]

@[simp] theorem dmcTimerClock_phase : (dmcTimerClock c s).apu.phase = s.apu.phase := by
  obtain ⟨d, n, o, h⟩ := dmcTimerClock_frame c s; simp [h]

@[simp] theorem dmcTimerClock_sampleAcc : (dmcTimerClock c s).apu.sampleAcc = s.apu.sampleAcc := by
  obtain ⟨d, n, o, h⟩ := dmcTimerClock_frame c s; simp [h]

@[simp] theorem dmcTimerClock_events : (dmcTimerClock c s).events = s.events := by
  obtain ⟨d, n, o, h⟩ := dmcTimerClock_frame c s; simp [h]

@[simp] theorem dmcTimerClock_mem : (dmcTimerClock c s).mem = s.mem := by
  obtain ⟨d, n, o, h⟩ := dmcTimerClock_frame c s; simp [h]

@[simp] theorem dmcTimerClock_readByte : (dmcTimerClock c s).out.readByte = s.out.readByte := by
  obtain ⟨d, n, o, h⟩ := dmcTimerClock_frame c s; simp [h]

@[simp] theorem dmcTimerClock_sample : (dmcTimerClock c s).out.sample = s.out.sample := by
  obtain ⟨d, n, o, h⟩ := dmcTimerClock_frame c s; simp [h]

/-- What the refill step does to the DMC depends on the DMC, its enable bit, the sample memory and the read
count. -/
theorem dmcRefill_congr {s u : State} (hd : u.apu.dmc = s.apu.dmc)
    (he : u.apu.chanEnable.dmc = s.apu.chanEnable.dmc) (hm : u.mem = s.mem) (hr : u.memReads = s.memReads) :
    (dmcRefill c u).apu.dmc = (dmcRefill c s).apu.dmc ∧ (dmcRefill c u).memReads = (dmcRefill c s).memReads := by
  have hb : ∀ x, u.memByte x = s.memByte x := fun x => by simp [State.memByte, hm, hr]
  have hl : u.apu.dmc.loopRestart u.apu.chanEnable.dmc = s.apu.dmc.loopRestart s.apu.chanEnable.dmc := by
    rw [hd, he]
  rcases dmcRefill_cases c s with ⟨h1, h⟩ | ⟨h1, h2, h⟩ | ⟨h1, h2, h⟩ <;>
    rcases dmcRefill_cases c u with ⟨g1, g⟩ | ⟨g1, g2, g⟩ | ⟨g1, g2, g⟩
  · exact ⟨by rw [h, g, hd], by rw [h, g, hr]⟩
  · exact absurd (hd ▸ g1) h1
  · exact absurd (hd ▸ g1) h1
  · exact absurd (hd ▸ h1) g1
  · exact ⟨by rw [h, g, hl]; rfl, by rw [h, g]; exact hr⟩
  · exact absurd (hl ▸ h2) g2
  · exact absurd (hd ▸ h1) g1
  · exact absurd (hl ▸ g2) h2
  · exact ⟨by rw [h, g, hl, hb]; rfl, by rw [h, g]; exact congrArg (· + 1) hr⟩

/-- So does what the DMC's clock does. -/
theorem dmcTimerClock_congr {s u : State} (hd : u.apu.dmc = s.apu.dmc)
    (he : u.apu.chanEnable.dmc = s.apu.chanEnable.dmc) (hm : u.mem = s.mem) (hr : u.memReads = s.memReads) :
    (dmcTimerClock c u).apu.dmc = (dmcTimerClock c s).apu.dmc
    ∧ (dmcTimerClock c u).memReads = (dmcTimerClock c s).memReads := by
  by_cases h0 : s.apu.dmc.timerCounter = 0
  · rw [dmcTimerClock_of_zero c s h0, dmcTimerClock_of_zero c u (hd ▸ h0), hd]
    have h := dmcRefill_congr c
      (s := s.withDmc { s.apu.dmc with timerCounter := dmcReload c s.apu.dmc.rateIndex })
      (u := u.withDmc { s.apu.dmc with timerCounter := dmcReload c s.apu.dmc.rateIndex }) rfl he hm hr
    exact ⟨congrArg Dmc.outputStep h.1, h.2⟩
  · rw [dmcTimerClock_of_ne c s h0, dmcTimerClock_of_ne c u (hd ▸ h0), hd]
    exact ⟨rfl, hr⟩

/-! ### Sample clock (R124) -/

/-- The accumulator step, as numbers: nothing is lost. -/
theorem sampleStep_toNat {c : Cfg} (hw : c.Wf) (acc : BitVec 32) (h : acc.toNat < c.clockRate) :
    (sampleStep c acc).1.toNat + (if (sampleStep c acc).2 = true then c.clockRate else 0)
      = acc.toNat + c.sampleRate ∧ (sampleStep c acc).1.toNat < c.clockRate := by
  obtain ⟨_, _, h1, h2, _⟩ := hw
  unfold sampleStep
  split
  · simp only [BitVec.toNat_ofNat, if_true]
    rw [Nat.mod_eq_of_lt (by omega)]; omega
  · simp only [BitVec.toNat_ofNat, Bool.false_eq_true, if_false]
    rw [Nat.mod_eq_of_lt (by omega)]; omega

/-- The sample clock changes the accumulator and the sample port only; what it emits is the mix. -/
theorem sampleClock_eq : sampleClock c s =
    { s with
      apu := s.apu.withSampleAcc (sampleStep c s.apu.sampleAcc).1
      out := { s.out with
        sample := if (sampleStep c s.apu.sampleAcc).2 = true then some (s.apu.mix c) else s.out.sample } } := by
  by_cases h : (sampleStep c s.apu.sampleAcc).2 = true
  · simp only [sampleClock, h, if_true]; rfl
  · simp only [sampleClock, h, if_false, Bool.false_eq_true]; rfl

/-! ### The event, part by part -/

@[simp] theorem clock_cfg : (clock c s).cfg = s.cfg := by
  simp [clock, advance, sampleClock_eq]

@[simp] theorem clock_frame : (clock c s).apu.frame = (s.apu.fsClock c).frame := by
  simp [clock, advance, sampleClock_eq, Apu.togglePhase]

theorem clock_p1 : (clock c s).apu.p1 =
    if s.apu.phase = false then (s.apu.fsClock c).p1.timerTick else (s.apu.fsClock c).p1 := by
  simp [clock, advance, sampleClock_eq, Apu.togglePhase, Apu.halfRateTimers_p1]

theorem clock_p2 : (clock c s).apu.p2 =
    if s.apu.phase = false then (s.apu.fsClock c).p2.timerTick else (s.apu.fsClock c).p2 := by
  simp [clock, advance, sampleClock_eq, Apu.togglePhase, Apu.halfRateTimers_p2]

theorem clock_tri : (clock c s).apu.tri =
    if s.apu.phase = false then (s.apu.fsClock c).tri.timerTick else (s.apu.fsClock c).tri := by
  simp [clock, advance, sampleClock_eq, Apu.togglePhase, Apu.halfRateTimers_tri]

theorem clock_noise : (clock c s).apu.noise =
    if s.apu.phase = false then (s.apu.fsClock c).noise.timerTick c else (s.apu.fsClock c).noise := by
  simp [clock, advance, sampleClock_eq, Apu.togglePhase, Apu.halfRateTimers_noise]

theorem clock_dmc : (clock c s).apu.dmc = (dmcTimerClock c s).apu.dmc := by
  simp only [clock, advance, sampleClock_eq, Apu.togglePhase, State.withApu_apu, Apu.withPhase_dmc,
    Apu.withSampleAcc_dmc]
  refine (dmcTimerClock_congr c (s := s) (u := s.update ((s.apu.fsClock c).halfRateTimers c)) ?_ ?_ rfl rfl).1 <;> simp

theorem clock_memReads : (clock c s).memReads = (dmcTimerClock c s).memReads := by
  simp only [clock, advance, sampleClock_eq, State.withApu_memReads]
  refine (dmcTimerClock_congr c (s := s) (u := s.update ((s.apu.fsClock c).halfRateTimers c)) ?_ ?_ rfl rfl).2 <;> simp

@[simp] theorem clock_chanEnable : (clock c s).apu.chanEnable = s.apu.chanEnable := by
  simp [clock, advance, sampleClock_eq, Apu.togglePhase]

@[simp] theorem clock_phase : (clock c s).apu.phase = !s.apu.phase := by
  simp [clock, advance, sampleClock_eq, Apu.togglePhase]

@[simp] theorem clock_sampleAcc : (clock c s).apu.sampleAcc = (sampleStep c s.apu.sampleAcc).1 := by
  simp [clock, advance, sampleClock_eq, Apu.togglePhase]

@[simp] theorem clock_events : (clock c s).events = s.events := by
  simp [clock, advance, sampleClock_eq]

@[simp] theorem clock_mem : (clock c s).mem = s.mem := by
  simp [clock, advance, sampleClock_eq]

@[simp] theorem clock_readByte : (clock c s).out.readByte = none := by
  simp [clock, advance, sampleClock_eq]

/-- The mix does not read the accumulator, so a sample is the mix of the state it leaves (R125). -/
theorem clock_sample : (clock c s).out.sample =
    if (sampleStep c s.apu.sampleAcc).2 = true then some ((clock c s).apu.mix c) else none := by
  simp only [clock, sampleClock_eq]
  have h : (advance c s).apu.sampleAcc = s.apu.sampleAcc := by simp [advance, Apu.togglePhase]
  have hs : (advance c s).out.sample = none := by simp [advance]
  rw [h, hs]
  rfl

/-- `exec` on a clock. -/
@[simp] theorem exec_clk : exec .clk s = .next (clock s.cfg s) := rfl

/-! ### Runs of clocks -/

/-- A run cut in two. -/
theorem times_add {α : Type} (f : α → α) (m n : Nat) (x : α) : times f (m + n) x = times f n (times f m x) := by
  induction m generalizing x with
  | zero => simp [times]
  | succ m ih => rw [Nat.succ_add]; exact ih (f x)

/-- The last step of a run. -/
theorem times_succ {α : Type} (f : α → α) (n : Nat) (x : α) : times f (n + 1) x = f (times f n x) :=
  times_add f n 1 x

/-- Clocks leave the configuration. -/
@[simp] theorem times_clock_cfg (n : Nat) : (times (clock c) n s).cfg = s.cfg := by
  induction n generalizing s with
  | zero => rfl
  | succ n ih => exact (ih (clock c s)).trans (clock_cfg c s)

/-- `n` clocks always run, under the machine's configuration. -/
@[simp] theorem clocks_eq (n : Nat) : clocks n s = .next (times (clock s.cfg) n s) := by
  induction n generalizing s with
  | zero => rfl
  | succ n ih => exact (ih (clock s.cfg s)).trans (by rw [clock_cfg]; rfl)

/-- The samples of a run of clocks, from its first clock. -/
theorem samplesOf_clocks_succ (n : Nat) : samplesOf (List.replicate (n + 1) .clk) s =
    (clock s.cfg s).out.sample.toList ++ samplesOf (List.replicate n .clk) (clock s.cfg s) := rfl

end Sys2Proof.Machine
end

