-- ==== Sys2Proof/Laws/Config.lean ====
section
/-! SUPPORT. Named parts of the constraints on a configuration. -/

namespace Sys2Proof

variable {c : Cfg} (h : c.Wf)
include h

theorem Cfg.Wf.sampleRate_pos : 0 < c.sampleRate := h.2.1

theorem Cfg.Wf.sampleRate_le : c.sampleRate ≤ c.clockRate := h.2.2.1

theorem Cfg.Wf.clockRate_lt : c.clockRate < 2 ^ 32 := h.2.2.2.1

theorem Cfg.Wf.noisePeriod_ok (i : Fin 16) :
    c.noisePeriod.get i % 2 = 0 ∧ 2 ≤ c.noisePeriod.get i ∧ c.noisePeriod.get i / 2 ≤ 2 ^ 12 :=
  h.2.2.2.2.1 i

theorem Cfg.Wf.dmcRate_ok (i : Fin 16) : 1 ≤ c.dmcRate.get i ∧ c.dmcRate.get i ≤ 2 ^ 9 := h.2.2.2.2.2.1 i

/-- The frame-sequencer offsets rise and fit the cycle counter. -/
theorem Cfg.Wf.offsets : 0 < c.fsA ∧ c.fsA < c.fsB ∧ c.fsB < c.fsC ∧ c.fsC < c.fsD ∧ c.fsD < c.fsE
    ∧ c.fsE < 2 ^ 16 := by
  obtain ⟨_, _, _, _, _, _, h1, h2, h3, h4, h5, h6, _⟩ := h
  exact ⟨h1, h2, h3, h4, h5, h6⟩

theorem Cfg.Wf.mixBound :
    30 * c.mixWPulse + 15 * c.mixWTri + 15 * c.mixWNoise + 127 * c.mixWDmc ≤ 32767 := by
  obtain ⟨_, _, _, _, _, _, _, _, _, _, _, _, hm, _⟩ := h
  exact hm

theorem Cfg.Wf.sampleAddress_lt : c.dmcAddrBase.toNat + 255 * c.dmcAddrStep < 2 ^ 16 := by
  obtain ⟨_, _, _, _, _, _, _, _, _, _, _, _, _, ha, _⟩ := h
  exact ha

theorem Cfg.Wf.sampleLength_ok : 1 ≤ c.dmcLenBias ∧ 255 * c.dmcLenStep + c.dmcLenBias < 2 ^ 12 := by
  obtain ⟨_, _, _, _, _, _, _, _, _, _, _, _, _, _, hl⟩ := h
  exact hl

end Sys2Proof
end

