-- ==== Sys2Proof/Laws/Memory.lean ====
section
/-! SUPPORT. The laws of the sample memory: reading a fixed byte, and the canonical form. -/

namespace Sys2Proof.Machine

/-- A byte just fixed is the byte found. -/
@[simp] theorem Memory.lookup_put_same (m : List Host.Cell) (a : Nat) (v : Byte) :
    Memory.lookup (Memory.put m a v) a = some v := by
  induction m with
  | nil => simp [Memory.put, Memory.lookup]
  | cons x rest ih =>
    obtain ⟨b, w⟩ := x
    unfold Memory.put
    split
    · simp [Memory.lookup]
    split
    · simp [Memory.lookup]
    · next h => simp [Memory.lookup, h, ih]

/-- Fixing a byte leaves every other address. -/
theorem Memory.lookup_put_other (m : List Host.Cell) {a b : Nat} (h : a ≠ b) (v : Byte) :
    Memory.lookup (Memory.put m a v) b = Memory.lookup m b := by
  induction m with
  | nil => simp [Memory.put, Memory.lookup, h.symm]
  | cons x rest ih =>
    obtain ⟨d, w⟩ := x
    unfold Memory.put
    split
    · simp [Memory.lookup, h.symm]
    split
    · next e => subst e; simp [Memory.lookup, h.symm]
    · simp [Memory.lookup, ih]

/-- The head of a canonical memory with one more byte fixed is the new cell or the old head. -/
theorem Memory.wf_cons_put {m : List Host.Cell} {a d : Nat} {v w : Byte} (hd : d < a)
    (hm : Memory.wf ((d, w) :: m) = true) (ih : Memory.wf (Memory.put m a v) = true) :
    Memory.wf ((d, w) :: Memory.put m a v) = true := by
  cases m with
  | nil => simp_all [Memory.put, Memory.wf]
  | cons x rest =>
    obtain ⟨b, y⟩ := x
    have hdb : d < b := by simp [Memory.wf] at hm; exact hm.1
    unfold Memory.put at ih ⊢
    split
    · simp_all [Memory.wf]
    split
    · next h1 h2 => rw [if_neg h1, if_pos h2] at ih; simp [Memory.wf, hd, ih]
    · next h1 h2 => rw [if_neg h1, if_neg h2] at ih; simp [Memory.wf, hdb, ih]

/-- A tail of a canonical memory is canonical. -/
theorem Memory.wf_tail {x : Host.Cell} {m : List Host.Cell} (h : Memory.wf (x :: m) = true) :
    Memory.wf m = true := by
  cases m with
  | nil => rfl
  | cons y rest => obtain ⟨a, v⟩ := x; obtain ⟨b, w⟩ := y; simp [Memory.wf] at h; exact h.2

/-- Fixing a byte keeps the canonical form. -/
theorem Memory.wf_put {m : List Host.Cell} (h : Memory.wf m = true) {a : Nat} (ha : a < 2 ^ 16) (v : Byte) :
    Memory.wf (Memory.put m a v) = true := by
  induction m with
  | nil => simpa [Memory.put, Memory.wf] using ha
  | cons x rest ih =>
    obtain ⟨d, w⟩ := x
    by_cases h1 : a < d
    · rw [Memory.put, if_pos h1]; simp [Memory.wf, h1, h]
    by_cases h2 : a = d
    · subst h2
      rw [Memory.put, if_neg h1, if_pos rfl]
      cases rest with
      | nil => simpa [Memory.wf] using ha
      | cons y r => obtain ⟨b, z⟩ := y; simpa [Memory.wf] using h
    · rw [Memory.put, if_neg h1, if_neg h2]
      exact Memory.wf_cons_put (by omega) h (ih (Memory.wf_tail h))

end Sys2Proof.Machine
end

