-- ==== Sys2Proof/Laws/PerInstr.lean ====
section
/-! SUPPORT. A law made per instruction: an encoded event lies in its own row of the opcode map. -/

namespace Sys2Proof.Laws.EncodedRow

/-- The word of an event, with the default base, matches a row of R66 that bears the event's mnemonic. -/
def Statement (i : Instr) : Prop :=
  ∃ r ∈ fullAddressRows ++ kindRows, r.mnemonic = i.mnemonic ∧ r.applies (encode Config.cfg i) = true

/-- A word with a full-address row's kind and address matches that row, whatever its data byte. -/
theorem applies_full (m : String) (k : BitVec 2) (a : Addr) (d : Byte) :
    (OpcodeRow.mk m (eventWord k a 0) 0x3FFFF00).applies (eventWord k a d) = true := by
  simp only [OpcodeRow.applies, eventWord, beq_iff_eq]
  apply BitVec.eq_of_getLsbD_eq
  intro i hi
  have hm : (0x3FFFF00 : EventWord).getLsbD i = decide (8 ≤ i) := by
    have : ∀ j : Fin 26, (0x3FFFF00 : EventWord).getLsbD j = decide (8 ≤ j.val) := by decide
    exact this ⟨i, hi⟩
  simp only [BitVec.getLsbD_and, BitVec.getLsbD_append, hm]
  by_cases h : i < 8
  · simp [h]
  · have : 8 ≤ i := by omega
    simp [h, this]

/-- A word of a kind matches that kind's row, whatever its address and data. -/
theorem applies_kind (m : String) (k : BitVec 2) (a : Addr) (d : Byte) :
    (OpcodeRow.mk m (eventWord k 0 0) 0x3000000).applies (eventWord k a d) = true := by
  simp only [OpcodeRow.applies, eventWord, beq_iff_eq]
  apply BitVec.eq_of_getLsbD_eq
  intro i hi
  have hm : (0x3000000 : EventWord).getLsbD i = decide (24 ≤ i) := by
    have : ∀ j : Fin 26, (0x3000000 : EventWord).getLsbD j = decide (24 ≤ j.val) := by decide
    exact this ⟨i, hi⟩
  simp only [BitVec.getLsbD_and, BitVec.getLsbD_append, hm]
  by_cases h : i < 8
  · have : ¬ 24 ≤ i := by omega
    simp [h, this]
  · by_cases h2 : i - 8 < 16
    · have : ¬ 24 ≤ i := by omega
      simp [h, h2, this]
    · have : 24 ≤ i := by omega
      simp [h, h2, this]

theorem wrP1Ctrl (d : BitVec 2) (l k : Bool) (v : BitVec 4) : Statement (.wrP1Ctrl d l k v) :=
  ⟨⟨"WR_P1_CTRL", 0x2400000, 0x3FFFF00⟩, by decide, rfl, applies_full _ 2 0x4000 _⟩

theorem wrP1Sweep (e : Bool) (p : BitVec 3) (n : Bool) (h : BitVec 3) : Statement (.wrP1Sweep e p n h) :=
  ⟨⟨"WR_P1_SWEEP", 0x2400100, 0x3FFFF00⟩, by decide, rfl, applies_full _ 2 0x4001 _⟩

theorem wrP1Lo (b : Byte) : Statement (.wrP1Lo b) :=
  ⟨⟨"WR_P1_LO", 0x2400200, 0x3FFFF00⟩, by decide, rfl, applies_full _ 2 0x4002 _⟩

theorem wrP1Hi (x : BitVec 5) (h : BitVec 3) : Statement (.wrP1Hi x h) :=
  ⟨⟨"WR_P1_HI", 0x2400300, 0x3FFFF00⟩, by decide, rfl, applies_full _ 2 0x4003 _⟩

theorem wrP2Ctrl (d : BitVec 2) (l k : Bool) (v : BitVec 4) : Statement (.wrP2Ctrl d l k v) :=
  ⟨⟨"WR_P2_CTRL", 0x2400400, 0x3FFFF00⟩, by decide, rfl, applies_full _ 2 0x4004 _⟩

theorem wrP2Sweep (e : Bool) (p : BitVec 3) (n : Bool) (h : BitVec 3) : Statement (.wrP2Sweep e p n h) :=
  ⟨⟨"WR_P2_SWEEP", 0x2400500, 0x3FFFF00⟩, by decide, rfl, applies_full _ 2 0x4005 _⟩

theorem wrP2Lo (b : Byte) : Statement (.wrP2Lo b) :=
  ⟨⟨"WR_P2_LO", 0x2400600, 0x3FFFF00⟩, by decide, rfl, applies_full _ 2 0x4006 _⟩

theorem wrP2Hi (x : BitVec 5) (h : BitVec 3) : Statement (.wrP2Hi x h) :=
  ⟨⟨"WR_P2_HI", 0x2400700, 0x3FFFF00⟩, by decide, rfl, applies_full _ 2 0x4007 _⟩

theorem wrTriCtrl (h : Bool) (r : BitVec 7) : Statement (.wrTriCtrl h r) :=
  ⟨⟨"WR_TRI_CTRL", 0x2400800, 0x3FFFF00⟩, by decide, rfl, applies_full _ 2 0x4008 _⟩

theorem wrTriUnused : Statement .wrTriUnused :=
  ⟨⟨"WR_TRI_UNUSED", 0x2400900, 0x3FFFF00⟩, by decide, rfl, applies_full _ 2 0x4009 _⟩

theorem wrTriLo (b : Byte) : Statement (.wrTriLo b) :=
  ⟨⟨"WR_TRI_LO", 0x2400A00, 0x3FFFF00⟩, by decide, rfl, applies_full _ 2 0x400A _⟩

theorem wrTriHi (x : BitVec 5) (h : BitVec 3) : Statement (.wrTriHi x h) :=
  ⟨⟨"WR_TRI_HI", 0x2400B00, 0x3FFFF00⟩, by decide, rfl, applies_full _ 2 0x400B _⟩

theorem wrNoiEnv (l k : Bool) (v : BitVec 4) : Statement (.wrNoiEnv l k v) :=
  ⟨⟨"WR_NOI_ENV", 0x2400C00, 0x3FFFF00⟩, by decide, rfl, applies_full _ 2 0x400C _⟩

theorem wrNoiUnused : Statement .wrNoiUnused :=
  ⟨⟨"WR_NOI_UNUSED", 0x2400D00, 0x3FFFF00⟩, by decide, rfl, applies_full _ 2 0x400D _⟩

theorem wrNoiPeriod (m : Bool) (p : BitVec 4) : Statement (.wrNoiPeriod m p) :=
  ⟨⟨"WR_NOI_PERIOD", 0x2400E00, 0x3FFFF00⟩, by decide, rfl, applies_full _ 2 0x400E _⟩

theorem wrNoiLen (x : BitVec 5) : Statement (.wrNoiLen x) :=
  ⟨⟨"WR_NOI_LEN", 0x2400F00, 0x3FFFF00⟩, by decide, rfl, applies_full _ 2 0x400F _⟩

theorem wrDmcCtrl (q l : Bool) (r : BitVec 4) : Statement (.wrDmcCtrl q l r) :=
  ⟨⟨"WR_DMC_CTRL", 0x2401000, 0x3FFFF00⟩, by decide, rfl, applies_full _ 2 0x4010 _⟩

theorem wrDmcLoad (v : BitVec 7) : Statement (.wrDmcLoad v) :=
  ⟨⟨"WR_DMC_LOAD", 0x2401100, 0x3FFFF00⟩, by decide, rfl, applies_full _ 2 0x4011 _⟩

theorem wrDmcAddr (b : Byte) : Statement (.wrDmcAddr b) :=
  ⟨⟨"WR_DMC_ADDR", 0x2401200, 0x3FFFF00⟩, by decide, rfl, applies_full _ 2 0x4012 _⟩

theorem wrDmcLen (b : Byte) : Statement (.wrDmcLen b) :=
  ⟨⟨"WR_DMC_LEN", 0x2401300, 0x3FFFF00⟩, by decide, rfl, applies_full _ 2 0x4013 _⟩

theorem wrStatus (p1 p2 t n d : Bool) : Statement (.wrStatus p1 p2 t n d) :=
  ⟨⟨"WR_STATUS", 0x2401500, 0x3FFFF00⟩, by decide, rfl, applies_full _ 2 0x4015 _⟩

theorem rdStatus : Statement .rdStatus :=
  ⟨⟨"RD_STATUS", 0x1401500, 0x3FFFF00⟩, by decide, rfl, applies_full _ 1 0x4015 _⟩

theorem wrFrame (m q : Bool) : Statement (.wrFrame m q) :=
  ⟨⟨"WR_FRAME", 0x2401700, 0x3FFFF00⟩, by decide, rfl, applies_full _ 2 0x4017 _⟩

theorem wrUnmapped (a : Addr) : Statement (.wrUnmapped a) :=
  ⟨⟨"WR_UNMAPPED", 0x2000000, 0x3000000⟩, by decide, rfl, applies_kind _ 2 a _⟩

theorem rdUnmapped (a : Addr) : Statement (.rdUnmapped a) :=
  ⟨⟨"RD_UNMAPPED", 0x1000000, 0x3000000⟩, by decide, rfl, applies_kind _ 1 a _⟩

theorem clk : Statement .clk :=
  ⟨⟨"CLK", 0x0000000, 0x3000000⟩, by decide, rfl, applies_kind _ 0 0 _⟩

theorem reset : Statement .reset :=
  ⟨⟨"RESET", 0x3000000, 0x3000000⟩, by decide, rfl, applies_kind _ 3 0 _⟩

end Sys2Proof.Laws.EncodedRow
end

