-- ==== Sys2Proof/Laws/Step.lean ====
section
/-! SUPPORT. What `exec` and `step` can do, said once: the inversion lemmas the invariants and the rules
about the whole machine are proved from. -/

namespace Sys2Proof.Machine

/-- Every event but `CLK` changes the block and the read port only: no sample, no memory read, the queue and
the sample memory as they were. -/
theorem exec_cases {i : Instr} {s t : State} (h : exec i s = .next t) :
    (i = .clk ∧ t = clock s.cfg s)
    ∨ (i ≠ .clk ∧ ∃ a b, t = { s with apu := a, out := { Outputs.none with readByte := b } }) := by
  cases i
  case clk => exact .inl ⟨rfl, (Host.Outcome.next.inj h).symm⟩
  all_goals exact .inr ⟨by simp, _, _, (Host.Outcome.next.inj h).symm⟩

/-- No event changes the configuration (I3). -/
theorem exec_cfg {i : Instr} {s t : State} (h : exec i s = .next t) : t.cfg = s.cfg := by
  obtain ⟨rfl, rfl⟩ | ⟨-, a, b, rfl⟩ := exec_cases h
  · exact clock_cfg _ _
  · rfl

/-- A step with no event pending changes nothing. -/
theorem step_idle {s : State} (h : s.events = []) : step s = .next s := by
  unfold step; rw [h]

/-- A step applies the oldest pending event. -/
theorem step_event {s : State} {e : EventWord} {rest : List EventWord} (h : s.events = e :: rest) :
    step s = exec (decodeEvent s.cfg e) { s with events := rest } := by
  unfold step; rw [h]

/-- Everything a step can do. -/
theorem step_cases {s t : State} (h : step s = .next t) :
    (s.events = [] ∧ t = s)
    ∨ ∃ e rest, s.events = e :: rest ∧ exec (decodeEvent s.cfg e) { s with events := rest } = .next t := by
  cases he : s.events with
  | nil => rw [step_idle he] at h; exact .inl ⟨rfl, (Host.Outcome.next.inj h).symm⟩
  | cons e rest => rw [step_event he] at h; exact .inr ⟨e, rest, rfl, h⟩

/-- No step changes the configuration (I3). -/
theorem step_cfg {s t : State} (h : step s = .next t) : t.cfg = s.cfg := by
  obtain ⟨-, rfl⟩ | ⟨e, rest, -, h⟩ := step_cases h
  · rfl
  · exact exec_cfg (s := { s with events := rest }) h

end Sys2Proof.Machine
end

