-- ==== Sys2Proof/Tests/Slice0.lean ====
section
/-! SUPPORT. Tests of the model against the spec's own tables, worked examples and vectors (V-..), each on one
step or one procedure, and a witness for every statement that has hypotheses. -/

namespace Sys2Proof.Tests

open Sys2Proof Sys2Proof.Machine

-- One theorem after the other: each `decide +kernel` waits for all before it, and a thread waits with it.
set_option Elab.async false

/-- Apply event words in order, under the machine's own configuration. -/
def after : List EventWord → State → State
  | [], s => s
  | e :: es, s =>
    match exec (decodeEvent s.cfg e) s with
    | .next t => after es t
    | .fault _ => s
    | .refused _ => s

/-- The block after event words from reset. -/
def apuAfter (es : List EventWord) : Apu := (after es State.reset).apu

/-- Reset, with the block replaced. -/
def withBlock (a : Apu) : State := State.reset.withApu a

/-! ### Well-formedness -/

/-- `0x4000` is `WR_P1_CTRL`, not an unmapped write; `0x4015` is `RD_STATUS`, not an unmapped read. -/
theorem test_illformed_unmapped :
    (Instr.wrUnmapped 0x4000).wf Config.cfg = false ∧ (Instr.wrUnmapped 0x4017).wf Config.cfg = false
    ∧ (Instr.rdUnmapped 0x4015).wf Config.cfg = false ∧ (Instr.wrUnmapped 0x4014).wf Config.cfg = true
    ∧ (Instr.rdUnmapped 0x4000).wf Config.cfg = true := by decide

/-- One broken constraint each of the kinds item I12 lists: an odd noise period, a DMC rate 0, a sample rate
above the clock rate, unordered offsets, weights too large, a length bias 0. -/
theorem test_illformed_cfg :
    ∀ c ∈ [{ Config.ntsc with noisePeriod := Config.ntsc.noisePeriod.set 0 5 },
        { Config.ntsc with dmcRate := Config.ntsc.dmcRate.set 15 0 },
        { Config.ntsc with sampleRate := 1789774 }, { Config.ntsc with fsB := 7457 },
        { Config.ntsc with mixWDmc := 148 }, { Config.ntsc with dmcLenBias := 0 }], ¬ Cfg.Wf c := by
  decide +kernel

/-! ### Decoding: every row, its word written out bit by bit as `kind_addr_fields` (R54, R56, R66) -/

theorem test_decode_pulse1 :
    decodeEvent Config.cfg 0b10_0100000000000000_10_1_1_1000 = .wrP1Ctrl 2 true true 8
    ∧ decodeEvent Config.cfg 0b10_0100000000000001_1_010_1_001 = .wrP1Sweep true 2 true 1
    ∧ decodeEvent Config.cfg 0b10_0100000000000010_11111110 = .wrP1Lo 0xFE
    ∧ decodeEvent Config.cfg 0b10_0100000000000011_11111_001 = .wrP1Hi 31 1 := by decide +kernel

theorem test_decode_pulse2 :
    decodeEvent Config.cfg 0b10_0100000000000100_01_1_0_0010 = .wrP2Ctrl 1 true false 2
    ∧ decodeEvent Config.cfg 0b10_0100000000000101_1_111_0_100 = .wrP2Sweep true 7 false 4
    ∧ decodeEvent Config.cfg 0b10_0100000000000110_10000001 = .wrP2Lo 0x81
    ∧ decodeEvent Config.cfg 0b10_0100000000000111_00001_110 = .wrP2Hi 1 6 := by decide +kernel

theorem test_decode_triangle :
    decodeEvent Config.cfg 0b10_0100000000001000_1_0000101 = .wrTriCtrl true 5
    ∧ decodeEvent Config.cfg 0b10_0100000000001001_11111111 = .wrTriUnused
    ∧ decodeEvent Config.cfg 0b10_0100000000001010_00110100 = .wrTriLo 0x34
    ∧ decodeEvent Config.cfg 0b10_0100000000001011_00001_001 = .wrTriHi 1 1 := by decide +kernel

theorem test_decode_noise :
    decodeEvent Config.cfg 0b10_0100000000001100_11_0_1_1111 = .wrNoiEnv false true 15
    ∧ decodeEvent Config.cfg 0b10_0100000000001101_11111111 = .wrNoiUnused
    ∧ decodeEvent Config.cfg 0b10_0100000000001110_1_000_0101 = .wrNoiPeriod true 5
    ∧ decodeEvent Config.cfg 0b10_0100000000001111_00011_111 = .wrNoiLen 3 := by decide +kernel

theorem test_decode_dmc :
    decodeEvent Config.cfg 0b10_0100000000010000_1_0_11_1111 = .wrDmcCtrl true false 15
    ∧ decodeEvent Config.cfg 0b10_0100000000010001_1_1000000 = .wrDmcLoad 64
    ∧ decodeEvent Config.cfg 0b10_0100000000010010_11111111 = .wrDmcAddr 0xFF
    ∧ decodeEvent Config.cfg 0b10_0100000000010011_00000100 = .wrDmcLen 4 := by decide +kernel

theorem test_decode_global :
    decodeEvent Config.cfg 0b10_0100000000010101_111_0_0_1_0_1 = .wrStatus true false true false false
    ∧ decodeEvent Config.cfg 0b01_0100000000010101_00000000 = .rdStatus
    ∧ decodeEvent Config.cfg 0b10_0100000000010111_1_0_111111 = .wrFrame true false
    ∧ decodeEvent Config.cfg 0b10_0100000000010100_00000010 = .wrUnmapped 0x4014
    ∧ decodeEvent Config.cfg 0b01_0100000000000000_00000000 = .rdUnmapped 0x4000
    ∧ decodeEvent Config.cfg 0b00_1010101111001101_11101111 = .clk
    ∧ decodeEvent Config.cfg 0b11_1111111111111111_11111111 = .reset := by decide +kernel

/-- A base other than the default moves every register (R55). -/
theorem test_decode_rebased :
    decodeEvent { Config.ntsc with apuBase := 0x5000 } 0x2500002 = .wrP1Ctrl 0 false false 2
    ∧ decodeEvent { Config.ntsc with apuBase := 0x5000 } 0x24000B8 = .wrUnmapped 0x4000 := by decide +kernel

/-- The host's two fixed names, on the word of `WR_P1_CTRL` of program P1. -/
theorem test_table_word :
    decodeTableWord 32 0x24000B8 = some (.wrP1Ctrl 2 true true 8)
    ∧ decodeTableWord 32 0x4000000 = none
    ∧ (State.reset.withFetchWord 32 0x24000B8).events = [0x24000B8] := by decide +kernel

/-- A fetched table word runs as the first event after reset: P1's first write. -/
theorem test_step_runs_fetched_word :
    ∃ t, step (State.reset.withFetchWord 32 0x2401501) = .next t ∧ t.apu.chanEnable.p1 = true
      ∧ t.events = [] := ⟨_, rfl, by decide +kernel, by decide +kernel⟩

/-! ### Register writes (the worked examples of the rules) -/

/-- Example of R86, vector V-P2. -/
theorem test_wrP1Ctrl :
    (apuAfter [0x24000B8]).p1.dutySelect = 2 ∧ (apuAfter [0x24000B8]).p1.env = ⟨true, true, 8, 15, 8⟩
    ∧ (apuAfter [0x24000B8]).p1.length.haltFlag = true := by decide +kernel

/-- Example of R78 on unit 2: `volume = 5` gives divider 5, decay 15, output 15 (V-E1). -/
theorem test_wrP2Ctrl :
    (apuAfter [0x2400405]).p2.env = ⟨false, false, 5, 15, 5⟩ ∧ (apuAfter [0x2400405]).p2.env.output = 15
    ∧ (apuAfter [0x2400405]).p1 = Pulse.reset := by decide +kernel

/-- Example of R87, vector V-P6. -/
theorem test_wrP1Sweep : (apuAfter [0x2400189]).p1.sweep = ⟨true, 0, true, 1, 0, true⟩ := by decide +kernel

theorem test_wrP2Sweep : (apuAfter [0x24005F1]).p2.sweep = ⟨true, 7, false, 1, 0, true⟩ := by decide +kernel

/-- Example of R88, vector V-P3: period 0x2AB, low byte 0xFE, gives 0x2FE. -/
theorem test_wrP1Lo : (Pulse.reset.writeHigh Config.cfg false 0 2 |>.writeLow 0xAB |>.writeLow 0xFE).timerPeriod
    = 0x2FE := by decide +kernel

theorem test_wrP2Lo : (apuAfter [0x2400701, 0x2400634]).p2.timerPeriod = 0x134 := by decide +kernel

/-- Vector V-P3, second write: bits 10:8 become 1, the length loads entry 31, the duty sequencer restarts. -/
theorem test_wrP1Hi :
    (apuAfter [0x2401501, 0x24002FE, 0x24003F9]).p1.timerPeriod = 0x1FE
    ∧ (apuAfter [0x2401501, 0x24002FE, 0x24003F9]).p1.length.value = 30
    ∧ (apuAfter [0x2401501, 0x0, 0x24003F9]).p1.dutyIndex = 0 := by decide +kernel

/-- Vector V-L4 on unit 2: a load while disabled is ignored, the period is still written. -/
theorem test_wrP2Hi :
    (apuAfter [0x240070A]).p2.length.value = 0 ∧ (apuAfter [0x240070A]).p2.timerPeriod = 0x200
    ∧ (apuAfter [0x2401502, 0x240070A]).p2.length.value = 254 := by decide +kernel

/-- Examples of R93 to R95, vector V-TRI6. -/
theorem test_wrTri :
    (apuAfter [0x240087F]).tri.linearCounterReload = 127 ∧ (apuAfter [0x240087F]).tri.linearControlFlag = true
    ∧ (apuAfter [0x240087F]).tri.length.haltFlag = false
    ∧ (apuAfter [0x2400B01, 0x2400A34]).tri.timerPeriod = 0x134
    ∧ (apuAfter [0x2401504, 0x2400B09]).tri.length.value = 254
    ∧ (apuAfter [0x2400B09]).tri.length.value = 0
    ∧ (apuAfter [0x2400B09]).tri.linearControlFlag = false := by decide +kernel

/-- Examples of R99 to R101. -/
theorem test_wrNoi :
    (apuAfter [0x2400C3F]).noise.env = ⟨true, true, 15, 15, 15⟩
    ∧ (apuAfter [0x2400C3F]).noise.length.haltFlag = true
    ∧ (apuAfter [0x2400E85]).noise.modeFlag = true ∧ (apuAfter [0x2400E85]).noise.periodIndex = 5
    ∧ (apuAfter [0x2401508, 0x2400F18]).noise.length.value = 2 := by decide +kernel

/-- Vectors V-D1 and V-D2. -/
theorem test_wrDmc :
    (apuAfter [0x240108F]).dmc.rateIndex = 15 ∧ (apuAfter [0x240108F]).dmc.irqEnable = true
    ∧ (apuAfter [0x240104F]).dmc.loopFlag = true
    ∧ (apuAfter [0x24011C0]).dmc.outputLevel = 64
    ∧ (apuAfter [0x24012FF]).dmc.sampleAddress = 0xFFC0
    ∧ (apuAfter [0x24013FF]).dmc.sampleLength = 4081 := by decide +kernel

/-- Vector V-L5, and the DMC restart of V-X2: `W 4015,1F` starts the one-byte sample. -/
theorem test_wrStatus :
    (apuAfter [0x240150F, 0x2400308, 0x2400708, 0x2400B08, 0x2400F08, 0x2401505]).p1.length.value = 254
    ∧ (apuAfter [0x240150F, 0x2400308, 0x2400708, 0x2400B08, 0x2400F08, 0x2401505]).p2.length.value = 0
    ∧ (apuAfter [0x240151F]).dmc.bytesRemaining = 1
    ∧ (apuAfter [0x240151F]).dmc.currentAddress = 0xC000
    ∧ (apuAfter [0x240151F, 0x240150F]).dmc.bytesRemaining = 0 := by decide +kernel

/-- Vectors V-X2, V-X3 and V-X4. -/
theorem test_rdStatus :
    (after [0x240151F, 0x2400308, 0x2400708, 0x2400B08, 0x2400F08, 0x1401500] State.reset).out.readByte
      = some 0x1F
    ∧ (after [0x1401500] (withBlock (State.reset.apu.withFrame ⟨.fourStep, 0, false, true⟩))).out.readByte
      = some 0x40
    ∧ (after [0x1401500, 0x1401500]
        (withBlock (State.reset.apu.withFrame ⟨.fourStep, 0, false, true⟩))).out.readByte = some 0
    ∧ (after [0x1401500, 0x1401500]
        (withBlock (State.reset.apu.withDmc { State.reset.apu.dmc with irqFlag := true }))).out.readByte
      = some 0x80 := by decide +kernel

/-- Vector V-F4 and the example of R116: in 5-step mode one quarter-frame tick (the linear counter loads) and one
half-frame tick (the length counts) happen at once. -/
theorem test_wrFrame :
    (apuAfter [0x2401504, 0x2400802, 0x2400B08, 0x2401780]).tri.linearCounter = 2
    ∧ (apuAfter [0x2401504, 0x2400802, 0x2400B08, 0x2401780]).tri.length.value = 253
    ∧ (apuAfter [0x2401504, 0x2400802, 0x2400B08, 0x2401700]).tri.length.value = 254
    ∧ (after [0x2401700] (withBlock (State.reset.apu.withFrame ⟨.fourStep, 9, false, true⟩))).apu.frame
      = ⟨.fourStep, 0, false, true⟩
    ∧ (after [0x2401740] (withBlock (State.reset.apu.withFrame ⟨.fourStep, 9, false, true⟩))).apu.frame
      = ⟨.fourStep, 0, true, false⟩ := by decide +kernel

/-- Vectors V-U2 to V-U4 and V-U6. -/
theorem test_no_register :
    apuAfter [0x24009FF] = State.reset.apu ∧ apuAfter [0x2400DFF] = State.reset.apu
    ∧ apuAfter [0x2401402] = State.reset.apu ∧ apuAfter [0x2FFFF00] = State.reset.apu
    ∧ (after [0x1401700] State.reset).out.readByte = some 0
    ∧ apuAfter [0x1401700] = State.reset.apu := by decide +kernel

/-- Vector V-RST1, on the end of a few writes. -/
theorem test_reset : apuAfter [0x240151F, 0x24000B8, 0x2401780, 0x0, 0x3000000] = State.reset.apu := by
  decide +kernel

/-- Other configurations of R6 run: under PAL the first clock reloads the DMC timer with 398 - 1, the noise
period of index 2 is 14 clocks, the 4-step sequence ends at 33253, and the machine stays PAL over a reset; another
base moves the registers, and an unmapped read returns that machine's OPEN_BUS. -/
theorem test_other_configurations :
    (after [0x0] (State.resetWith Config.pal)).apu.dmc.timerCounter = 397
    ∧ (after [0x2400E02, 0x0] (State.resetWith Config.pal)).apu.noise.timerCounter = 6
    ∧ (after [0x0] ((State.resetWith Config.pal).withApu
        ((Apu.reset Config.pal).withFrame ⟨.fourStep, 33252, false, false⟩))).apu.frame = ⟨.fourStep, 0, false, true⟩
    ∧ after [0x2401501, 0x3000000] (State.resetWith Config.pal) = State.resetWith Config.pal
    ∧ (after [0x25000B8] (State.resetWith { Config.ntsc with apuBase := 0x5000 })).apu.p1.env
      = ⟨true, true, 8, 15, 8⟩
    ∧ (after [0x1401700] (State.resetWith { Config.ntsc with openBus := 0x40 })).out.readByte = some 0x40 := by
  decide +kernel

/-! ### Clocks and procedures -/

/-- Vector V-M1. -/
theorem test_clk :
    (apuAfter [0x0]).p1.dutyIndex = 7 ∧ (apuAfter [0x0]).noise.shiftRegister = 0x4000
    ∧ (apuAfter [0x0]).dmc.timerCounter = 427 ∧ (apuAfter [0x0]).frame.cycleCounter = 1
    ∧ (apuAfter [0x0]).phase = true ∧ (apuAfter [0x0]).sampleAcc = 44100 := by decide +kernel

/-- R117: the clock that reaches `FS_D` in 4-step mode sets the flag and restarts the count. -/
theorem test_clk_frame_end :
    (after [0x0] (withBlock (State.reset.apu.withFrame ⟨.fourStep, 29828, false, false⟩))).apu.frame
      = ⟨.fourStep, 0, false, true⟩
    ∧ (after [0x0] (withBlock (State.reset.apu.withFrame ⟨.fiveStep, 29828, false, false⟩))).apu.frame
      = ⟨.fiveStep, 29829, false, false⟩ := by decide +kernel

/-- Vectors V-T1 and V-T3, and the last line of V-T2. -/
theorem test_timerClock :
    timerClock 0#11 254#11 = (254#11, true) ∧ timerClock 0#11 0#11 = (0#11, true)
    ∧ timerClock 1#11 254#11 = (0#11, false) := by decide

/-- Vector V-E2 (its first four rows), and the two ends of V-E3 and V-E4. -/
theorem test_envelope :
    times Envelope.clock 4 (⟨false, false, 3, 15, 3⟩ : Envelope) = ⟨false, false, 3, 14, 3⟩
    ∧ (Envelope.clock ⟨true, false, 0, 0, 0⟩).decayCounter = 15
    ∧ (Envelope.clock ⟨false, false, 0, 0, 0⟩).decayCounter = 0 := by decide +kernel

/-- Vector V-S1. -/
theorem test_sweepTarget :
    sweepTarget .unit1 (Pulse.reset.writeHigh Config.cfg false 0 1 |>.writeSweep true 0 false 1) = 384
    ∧ sweepTarget .unit1 (Pulse.reset.writeHigh Config.cfg false 0 1 |>.writeSweep true 0 true 1) = 127
    ∧ sweepTarget .unit2 (Pulse.reset.writeHigh Config.cfg false 0 1 |>.writeSweep true 0 true 1) = 128 := by
  decide +kernel

/-- Vector V-S3 at its last steps: the target -1 of unit 1 is not applied; unit 2 stays at 1. -/
theorem test_sweepClock :
    (Pulse.sweepClock .unit1 (Pulse.reset.writeLow 0 |>.writeSweep true 0 true 1)).timerPeriod = 0
    ∧ (Pulse.sweepClock .unit2 (Pulse.reset.writeLow 1 |>.writeSweep true 0 true 1)).timerPeriod = 1
    ∧ (Pulse.sweepClock .unit1 (Pulse.reset.writeLow 31 |>.writeSweep true 2 true 1)).timerPeriod = 15
    ∧ (Pulse.sweepClock .unit1 (Pulse.reset.writeLow 31 |>.writeSweep true 2 true 1)).sweep.divider = 2 := by
  decide +kernel

/-- Vector V-P1, select 2, and V-P4. -/
theorem test_pulseOutput :
    (let p : Pulse := ⟨254, 0, 7, 2, ⟨true, true, 8, 15, 8⟩, Sweep.reset, ⟨10, true⟩⟩
     p.output Config.cfg .unit1 = 8 ∧ (p.writeLow 7).output Config.cfg .unit1 = 0
     ∧ (p.writeLow 8).output Config.cfg .unit1 = 8) := by decide +kernel

/-- Vectors V-TRI4 and V-TRI5. -/
theorem test_triTimer :
    (Triangle.timerTick ⟨100, 0, 31, 3, 3, false, ⟨5, false⟩⟩).sequenceIndex = 0
    ∧ (Triangle.timerTick ⟨100, 0, 31, 3, 0, false, ⟨5, false⟩⟩).sequenceIndex = 31
    ∧ (Triangle.timerTick ⟨100, 0, 31, 3, 3, false, ⟨5, false⟩⟩).timerCounter = 100 := by decide +kernel

/-- Vector V-TRI1: four of its six rows. -/
theorem test_triOutput :
    (Triangle.output Config.cfg ⟨0, 0, 0, 0, 0, false, ⟨0, false⟩⟩) = 15
    ∧ (Triangle.output Config.cfg ⟨0, 0, 15, 0, 0, false, ⟨0, false⟩⟩) = 0
    ∧ (Triangle.output Config.cfg ⟨0, 0, 16, 0, 0, false, ⟨0, false⟩⟩) = 0
    ∧ (Triangle.output Config.cfg ⟨0, 0, 17, 0, 0, false, ⟨0, false⟩⟩) = 1 := by decide +kernel

/-- Vectors V-N1 and V-N2 at their 10th and 15th steps. -/
theorem test_lfsrStep :
    times (lfsrStep false) 15 1 = 0x4001 ∧ times (lfsrStep true) 10 1 = 0x4020
    ∧ times (lfsrStep true) 15 1 = 0x0201 := by decide +kernel

/-- Vector V-D9, first tick, with 0xAA in the sample memory at 0xC000. -/
theorem test_dmcTick :
    (let s := (withBlock (State.reset.apu.withDmc ⟨false, false, 0, 64, 0xC000, 1, 0xC000, 2, 0, 0, true, 0, false⟩)
        ).withSampleByte 0xC000 0xAA
     let t := dmcTimerClock Config.cfg s
     t.apu.dmc.shiftRegister = 0x55 ∧ t.apu.dmc.currentAddress = 0xC001 ∧ t.apu.dmc.bytesRemaining = 1
     ∧ t.apu.dmc.bitsRemaining = 7 ∧ t.apu.dmc.silenceFlag = false ∧ t.apu.dmc.outputLevel = 62
     ∧ t.out.memAddr = some 0xC000 ∧ t.memReads = 1) := by decide +kernel

/-- R112: the clamps at both ends (from 126, 127 up; from 1, 0 down). -/
theorem test_dmcClamp :
    (Dmc.stepLevel { State.reset.apu.dmc with outputLevel := 126, shiftRegister := 1 }) = 127
    ∧ (Dmc.stepLevel { State.reset.apu.dmc with outputLevel := 127, shiftRegister := 1 }) = 127
    ∧ (Dmc.stepLevel { State.reset.apu.dmc with outputLevel := 1 }) = 0
    ∧ (Dmc.stepLevel { State.reset.apu.dmc with outputLevel := 0 }) = 0 := by decide +kernel

/-- R115. -/
theorem test_nextAddr :
    nextAddr Config.cfg 0xFFFF = 0x8000 ∧ nextAddr Config.cfg 0xC000 = 0xC001 := by decide +kernel

/-- Vector V-M4: only the triangle, at level 11 (`sequenceIndex = 4`), and only the DMC, at 64. -/
theorem test_mix :
    (let a := (apuAfter [0x2401504])
     (a.withTri { a.tri with sequenceIndex := 4 }).mix Config.cfg) = 3069
    ∧ (apuAfter [0x2401510, 0x2401140]).mix Config.cfg = 7040 := by decide +kernel

/-- R124: the 41st clock of a run from reset emits, leaving 18327. -/
theorem test_sampleStep :
    sampleStep Config.cfg (BitVec.ofNat 32 (40 * 44100)) = (18327, true)
    ∧ sampleStep Config.cfg (BitVec.ofNat 32 (39 * 44100)) = (1764000, false) := by decide +kernel

/-! ### Witnesses: the hypotheses of each statement can be met, clause by clause -/

/-- DecodeInvertsEncode, DecodeFollowsOpcodeMap, MixIsWeightedSum: well-formed terms, a base at the end of its
range, the default weights. -/
theorem witness_encoding :
    (Instr.wrUnmapped 0xFFFF).wf Config.cfg = true ∧ (Instr.wrP1Ctrl 3 true false 15).wf Config.cfg = true
    ∧ (0xFFE8 : Addr).toNat + 0x17 < 2 ^ 16 ∧ Config.cfg.apuBase.toNat + 0x17 < 2 ^ 16
    ∧ 30 * Config.cfg.mixWPulse + 15 * Config.cfg.mixWTri + 15 * Config.cfg.mixWNoise
      + 127 * Config.cfg.mixWDmc ≤ 32767 := by decide

/-- AccessesWithoutRegister: addresses that meet its two premises. -/
theorem witness_no_register : (∀ off ∈ writeOffsets, (0x4014 : Addr) ≠ Config.cfg.apuBase + off)
    ∧ (0x4014 : Addr) ≠ Config.cfg.apuBase + 0x15 := by
  simp [writeOffsets, Config.cfg, Config.ntsc]

/-- DmcWrites, ResetEvent, StepKeepsRanges: a state of the default configuration, and one of another that meets
the constraints. -/
theorem witness_configuration :
    State.reset.cfg = Config.ntsc ∧ State.reset.cfg.Wf ∧ (State.resetWith Config.pal).cfg.Wf
    ∧ State.reset.cfg.WrapsInBank ∧ (State.resetWith Config.pal).cfg.WrapsInBank := by decide +kernel

/-- EventsKeepSampleMemory: clocks that read, at the place a sample has come to and at the start of a looping
one, and an event that does not. -/
theorem witness_presented :
    (after [0x2401510, 0x0] State.reset).out.memAddr = some 0xC000
    ∧ (after [0x2401510] State.reset).apu.dmc.bytesRemaining ≠ 0
    ∧ (let a := apuAfter [0x240104F, 0x2401510]
       let s := withBlock (a.withDmc { a.dmc with bytesRemaining := 0, currentAddress := 0xC123 })
       s.apu.dmc.bytesRemaining = 0 ∧ (after [0x0] s).out.memAddr = some 0xC000 ∧ (after [0x0] s).memReads = 1)
    ∧ (after [0x2401510] State.reset).out.memAddr = none := by decide +kernel

/-- UnmappedAddressSet at the borders of its ranges. -/
theorem witness_unmapped_borders :
    decodeEvent Config.cfg (writeWord 0x3FFF 0) = .wrUnmapped 0x3FFF
    ∧ decodeEvent Config.cfg (writeWord 0x4013 0) = .wrDmcLen 0
    ∧ decodeEvent Config.cfg (writeWord 0x4014 0) = .wrUnmapped 0x4014
    ∧ decodeEvent Config.cfg (writeWord 0x4016 0) = .wrUnmapped 0x4016
    ∧ decodeEvent Config.cfg (writeWord 0x4017 0) = .wrFrame false false
    ∧ decodeEvent Config.cfg (writeWord 0x4018 0) = .wrUnmapped 0x4018
    ∧ decodeEvent Config.cfg (readWord 0x4014) = .rdUnmapped 0x4014
    ∧ decodeEvent Config.cfg (readWord 0x4016) = .rdUnmapped 0x4016 := by decide +kernel

/-- ByteTransportCarriesWords: the least and the greatest number that is no word, and a short list. -/
theorem witness_transport :
    decode Config.cfg (bytesOf 4 (2 ^ 26)) = .error .notAnEventWord
    ∧ decode Config.cfg (bytesOf 4 (2 ^ 32 - 1)) = .error .notAnEventWord
    ∧ decode Config.cfg [0, 0, 0] = .error .truncated := ⟨rfl, rfl, rfl⟩

/-- StepAppliesOldestEvent: one state for each clause. -/
theorem witness_step :
    (State.reset.withFetchWord 26 0x24000B8).events = [encode Config.cfg (.wrP1Ctrl 2 true true 8)]
    ∧ State.reset.events = [] := by decide +kernel

/-- The statements about every next state (EventsKeepSampleMemory, FieldsChangeOnlyByTheirWriters,
PulseUnitsAreIndependent, OddClocksHoldHalfRateTimers): a clock from an even and from an odd phase. -/
theorem witness_next :
    (∃ t, exec .clk State.reset = .next t)
    ∧ (∃ t, exec .clk (withBlock (State.reset.apu.withPhase true)) = .next t)
    ∧ Instr.clk ≠ .reset := ⟨⟨_, rfl⟩, ⟨_, rfl⟩, by decide⟩

/-- FieldsChangeOnlyByTheirWriters: the premise of its clauses holds of events that do change the field. -/
theorem witness_fields_change :
    (apuAfter [0x240151F]).chanEnable ≠ State.reset.apu.chanEnable
    ∧ (apuAfter [0x0]).phase ≠ State.reset.apu.phase
    ∧ (apuAfter [0x0]).sampleAcc ≠ State.reset.apu.sampleAcc
    ∧ (apuAfter [0x24002FE, 0x0]).p1.timerCounter ≠ (apuAfter [0x24002FE]).p1.timerCounter
    ∧ (apuAfter [0x24006FE, 0x0]).p2.timerCounter ≠ (apuAfter [0x24006FE]).p2.timerCounter
    ∧ (apuAfter [0x2400AFE, 0x0]).tri.timerCounter ≠ (apuAfter [0x2400AFE]).tri.timerCounter
    ∧ (apuAfter [0x0]).noise.timerCounter ≠ State.reset.apu.noise.timerCounter
    ∧ (apuAfter [0x0]).dmc.timerCounter ≠ State.reset.apu.dmc.timerCounter
    ∧ (apuAfter [0x0]).p1.dutyIndex ≠ State.reset.apu.p1.dutyIndex
    ∧ (apuAfter [0x0, 0x2400700]).p2.dutyIndex ≠ (apuAfter [0x0]).p2.dutyIndex
    ∧ (apuAfter [0x24000B8]).p1.dutySelect ≠ State.reset.apu.p1.dutySelect
    ∧ (apuAfter [0x24004B8]).p2.dutySelect ≠ State.reset.apu.p2.dutySelect
    ∧ (apuAfter [0x24002FE]).p1.timerPeriod ≠ State.reset.apu.p1.timerPeriod
    ∧ (apuAfter [0x2400701]).p2.timerPeriod ≠ State.reset.apu.p2.timerPeriod
    ∧ (apuAfter [0x2400A34]).tri.timerPeriod ≠ State.reset.apu.tri.timerPeriod := by decide +kernel

theorem witness_fields_change' :
    (apuAfter [0x2401504, 0x2400802, 0x2400B08, 0x2401780, 0x0]).tri.sequenceIndex ≠ 0
    ∧ (apuAfter [0x240087F]).tri.linearCounterReload ≠ State.reset.apu.tri.linearCounterReload
    ∧ (apuAfter [0x2400802, 0x2401780]).tri.linearCounter ≠ (apuAfter [0x2400802]).tri.linearCounter
    ∧ (apuAfter [0x2400802, 0x2401780]).tri.linearControlFlag ≠ (apuAfter [0x2400802]).tri.linearControlFlag
    ∧ (apuAfter [0x0]).noise.shiftRegister ≠ State.reset.apu.noise.shiftRegister
    ∧ (apuAfter [0x2400E85]).noise.periodIndex ≠ State.reset.apu.noise.periodIndex
    ∧ (apuAfter [0x2400E85]).noise.modeFlag ≠ State.reset.apu.noise.modeFlag
    ∧ (apuAfter [0x2401140]).dmc.outputLevel ≠ State.reset.apu.dmc.outputLevel
    ∧ (apuAfter [0x24012FF]).dmc.sampleAddress ≠ State.reset.apu.dmc.sampleAddress
    ∧ (apuAfter [0x24013FF]).dmc.sampleLength ≠ State.reset.apu.dmc.sampleLength
    ∧ (apuAfter [0x240108F]).dmc.rateIndex ≠ State.reset.apu.dmc.rateIndex
    ∧ (apuAfter [0x2401510]).dmc.currentAddress ≠ State.reset.apu.dmc.currentAddress
    ∧ (apuAfter [0x2401510]).dmc.bytesRemaining ≠ State.reset.apu.dmc.bytesRemaining
    ∧ (dmcTimerClock Config.cfg (after [0x2401510] State.reset)).apu.dmc.silenceFlag
      ≠ State.reset.apu.dmc.silenceFlag
    ∧ (apuAfter [0x2401780]).frame.mode ≠ State.reset.apu.frame.mode
    ∧ (apuAfter [0x2401740]).frame.irqInhibit ≠ State.reset.apu.frame.irqInhibit
    ∧ (apuAfter [0x0]).frame.cycleCounter ≠ State.reset.apu.frame.cycleCounter := by decide +kernel

/-- ClockEvent: the two accumulator clauses at the values where they meet. -/
theorem witness_clock_accumulator :
    (1745672#32).toNat + 44100 < 1789773 ∧ 1789773 ≤ (1745673#32).toNat + 44100
    ∧ (1745673#32).toNat < 1789773
    ∧ State.reset.cfg.sampleRate = 44100 ∧ State.reset.cfg.clockRate = 1789773 := by decide

/-- FrameSequencerClock: counts at, and beside, every offset. -/
theorem witness_sequencer_counts :
    (7456#16 + 1).toNat = 7457 ∧ (14912#16 + 1).toNat = 14913 ∧ (22370#16 + 1).toNat = 22371
    ∧ (29828#16 + 1).toNat = 29829 ∧ (37280#16 + 1).toNat = 37281 ∧ (7457#16 + 1).toNat = 7458
    ∧ State.reset.apu.frame.mode = .fourStep ∧ (apuAfter [0x2401780]).frame.mode = .fiveStep := by
  decide +kernel

/-- QuarterFrameTick and HalfFrameTick: divider zero and not zero; a sweep that applies its target, and the
targets -1 and 2048 that it does not. -/
theorem witness_ticks :
    (apuAfter []).p1.env.divider = 0 ∧ (apuAfter [0x2400005]).p1.env.divider ≠ 0
    ∧ (let p := Pulse.reset.writeHigh Config.cfg false 0 1 |>.writeSweep true 0 false 1
       p.sweep.divider = 0 ∧ p.sweep.enabled = true ∧ p.sweep.shiftCount ≠ 0 ∧ 0 ≤ sweepTarget .unit1 p
       ∧ sweepTarget .unit1 p ≤ 2047)
    ∧ sweepTarget .unit1 (Pulse.reset.writeSweep true 0 true 1) = -1
    ∧ sweepTarget .unit2 { Pulse.reset with timerPeriod := 1024 } = 2048 := by decide +kernel

/-- SweepTargetLaw and ChannelOutputs: both signs, a muted and a sounding pulse, both values of the shift
register's low bit. -/
theorem witness_outputs :
    Pulse.reset.sweep.negate = false ∧ (Pulse.reset.writeSweep true 0 true 1).sweep.negate = true
    ∧ Pulse.reset.length.value = 0
    ∧ (let p : Pulse := ⟨8, 0, 7, 2, ⟨true, true, 8, 15, 8⟩, Sweep.reset, ⟨10, true⟩⟩
       p.length.value ≠ 0 ∧ 8 ≤ p.timerPeriod.toNat ∧ sweepTarget .unit1 p ≤ 2047
       ∧ (p.writeLow 7).timerPeriod.toNat < 8)
    ∧ (let n : Noise := ⟨0, 0, false, 0x4000, ⟨true, true, 15, 15, 15⟩, ⟨2, true⟩⟩
       n.shiftRegister.getLsbD 0 = false ∧ n.length.value ≠ 0)
    ∧ Noise.reset.shiftRegister.getLsbD 0 = true := by decide +kernel

/-- HalfRateTimerClocks and DmcTimerAndOutputStep: counters at zero and not at zero. -/
theorem witness_timers :
    State.reset.apu.p1.timerCounter = 0 ∧ (apuAfter [0x24002FE, 0x0]).p1.timerCounter ≠ 0
    ∧ State.reset.apu.noise.timerCounter = 0 ∧ (apuAfter [0x0]).noise.timerCounter ≠ 0
    ∧ State.reset.apu.dmc.timerCounter = 0 ∧ (apuAfter [0x0]).dmc.timerCounter ≠ 0 := by decide +kernel

/-- DmcRefillStep: bits left; a byte to fetch; a loop to restart, of a length that is not and that is 0; nothing
to play. -/
theorem witness_refill :
    (let d := State.reset.apu.dmc
     d.bitsRemaining = 0 ∧ d.bytesRemaining = 0 ∧ ¬ (d.loopFlag = true ∧ State.reset.apu.chanEnable.dmc = true))
    ∧ (let a := apuAfter [0x240104F, 0x2401510]
       a.dmc.bitsRemaining = 0 ∧ a.dmc.bytesRemaining ≠ 0)
    ∧ (let a := (after [0x240104F, 0x2401510, 0x0] (State.reset.withSampleByte 0xC000 0)).apu
       a.dmc.bitsRemaining ≠ 0 ∧ a.dmc.bytesRemaining = 0 ∧ a.dmc.loopFlag = true ∧ a.chanEnable.dmc = true
       ∧ a.dmc.sampleLength ≠ 0)
    ∧ (let a := apuAfter [0x240104F, 0x2401510]
       let d := { a.dmc with bytesRemaining := 0 }
       d.bitsRemaining = 0 ∧ d.bytesRemaining = 0 ∧ d.loopFlag = true ∧ a.chanEnable.dmc = true
       ∧ d.sampleLength ≠ 0 ∧ { d with sampleLength := 0 }.sampleLength = 0) := by decide +kernel

/-- DmcTimerAndOutputStep: a tick that stays silent and a tick that plays. -/
theorem witness_output_step :
    (dmcRefill Config.cfg State.reset).apu.dmc.silenceFlag = true
    ∧ (dmcRefill Config.cfg (after [0x2401510] State.reset)).apu.dmc.silenceFlag = false := by decide +kernel

/-- SampleMemoryAnswers: two addresses, a canonical memory. -/
theorem witness_memory : (0xC000 : Addr) ≠ 0xC001 ∧ Memory.wf [(0x8000, 1), (0xFFFF, 2)] = true := by decide

/-- FrameInterruptSources: a clock sets the flag, a status read clears it. -/
theorem witness_frame_interrupt :
    (let s := withBlock (State.reset.apu.withFrame ⟨.fourStep, 29828, false, false⟩)
     s.apu.frame.irqFlag = false ∧ (after [0x0] s).apu.frame.irqFlag = true
     ∧ (after [0x0, 0x1401500] s).apu.frame.irqFlag = false) := by decide +kernel

/-- DmcInterruptSources: vector V-D8, set by a clock and cleared by a status write. -/
theorem witness_dmc_interrupt :
    (apuAfter [0x2401080]).dmc.irqFlag = false ∧ (apuAfter [0x2401080, 0x0]).dmc.irqFlag = true
    ∧ (apuAfter [0x2401080, 0x0, 0x2401500]).dmc.irqFlag = false := by decide +kernel

/-- MutedChannelsContributeNothing and DisabledBlockIsSilent: blocks that agree on the enabled channel and differ
on a muted one; a list of events without a status write that does emit a sample. -/
theorem witness_muted :
    (let a := apuAfter [0x2401501]
     let b := apuAfter [0x2401501, 0x24011C0]
     a.chanEnable = b.chanEnable ∧ a.p1 = b.p1 ∧ a.chanEnable.dmc = false ∧ a.dmc ≠ b.dmc)
    ∧ (∃ t, exec (.wrStatus false false false false false) State.reset = .next t)
    ∧ Instr.clk.mnemonic ≠ "WR_STATUS"
    ∧ samplesOf [.clk] (withBlock (State.reset.apu.withSampleAcc 1789772)) = [0] :=
  ⟨by decide +kernel, ⟨_, rfl⟩, by decide, by decide +kernel⟩

/-- LengthCountersCountDown, EnvelopeDecayTime, IdleSweepKeepsPeriod: both values of the flag each clause asks
for, and the last tick count of the first decay clause. -/
theorem witness_counters :
    (apuAfter [0x24000B8]).p1.length.haltFlag = true ∧ State.reset.apu.p1.length.haltFlag = false
    ∧ Envelope.reset.loopFlag = false ∧ (Envelope.reset.write true false 15).loopFlag = true
    ∧ 255 < 16 * ((15 : BitVec 4).toNat + 1) ∧ 16 * ((15 : BitVec 4).toNat + 1) ≤ 256
    ∧ State.reset.apu.p1.sweep.enabled = false ∧ (apuAfter [0x24001F0]).p1.sweep.shiftCount = 0 := by
  decide +kernel

/-- FrameInterruptOncePerSequence, TicksPerSequence: a sequence's start in each mode. -/
theorem witness_sequences :
    State.reset.apu.frame.mode = .fourStep ∧ State.reset.apu.frame.cycleCounter = 0
    ∧ (apuAfter [0x2401780]).frame.mode = .fiveStep ∧ (apuAfter [0x2401780]).frame.cycleCounter = 0
    ∧ 29828 < State.reset.cfg.fsD ∧ State.reset.cfg.Wf := by decide +kernel

/-- PulseWaveformPeriod: program P1 before its clocks, and a period lowered below a running counter;
TriangleHeldWhileLengthZero, IdleDmcFallsSilent, EnableBeforeLengthLoad (each channel): reset. -/
theorem witness_runs :
    (let a := apuAfter [0x2401501, 0x24000B8, 0x24002FE, 0x2400300]
     a.phase = false ∧ a.p1.sweep.enabled = false ∧ a.p1.timerCounter.toNat ≤ a.p1.timerPeriod.toNat)
    ∧ (let a := apuAfter [0x24002FE, 0x0, 0x0, 0x2400210]
       a.phase = false ∧ a.p1.sweep.enabled = false ∧ a.p1.timerPeriod.toNat < a.p1.timerCounter.toNat)
    ∧ State.reset.apu.tri.length.value = 0
    ∧ State.reset.apu.dmc.bytesRemaining = 0 ∧ State.reset.apu.dmc.loopFlag = false
    ∧ State.reset.apu.dmc.timerCounter.toNat + 1 + State.reset.apu.dmc.bitsRemaining.toNat
        * State.reset.cfg.dmcRate.get State.reset.apu.dmc.rateIndex.toFin ≤ 1
    ∧ State.reset.apu.chanEnable.p1 = false ∧ State.reset.apu.p1.length.value = 0
    ∧ State.reset.apu.chanEnable.p2 = false ∧ State.reset.apu.p2.length.value = 0
    ∧ State.reset.apu.chanEnable.tri = false
    ∧ State.reset.apu.chanEnable.noise = false ∧ State.reset.apu.noise.length.value = 0 := by decide +kernel

/-- A configuration of another sample rate, for the statements over configurations. -/
def cfg48 : Cfg := { Config.ntsc with sampleRate := 48000 }

/-- SampleRateIsExact, HalfRateTimerClocks, DmcTimerAndOutputStep, ResetMeetsInvariants,
EveryConfigKeepsInvariants, FrameSequencerClock (with the counts of witness_sequencer_counts: its offsets are the
default ones). -/
theorem witness_config :
    cfg48.Wf ∧ Config.pal.Wf ∧ (State.resetWith cfg48).apu.sampleAcc.toNat < (State.resetWith cfg48).cfg.clockRate := by
  decide +kernel

/-- A state of a configuration with an event pending, two channels enabled and a byte of sample memory fixed. -/
def busy (c : Cfg) : State :=
  ⟨c, (after [0x2401511, 0x2400308] (State.resetWith c)).apu, Outputs.none, [0x0], [(0xC000, 0x0F)], 0⟩

/-- StepKeepsInvariants, EveryConfigKeepsInvariants: the default configuration and PAL. -/
theorem witness_invariants : Inv (busy Config.ntsc) ∧ Inv (busy Config.pal) := by
  constructor <;> constructor <;> decide +kernel

/-- StepKeepsRanges: a state whose step presents an address. -/
theorem witness_ranges :
    Ranges (busy Config.ntsc) ∧ (busy Config.ntsc).events ≠ []
    ∧ (after [0x0] (busy Config.ntsc)).out.memAddr = some 0xC000 := by
  refine ⟨⟨⟨0, ?_⟩, ⟨0, ?_⟩, ⟨0, ?_⟩, ⟨0, ?_⟩, ?_, ?_⟩, ?_, ?_⟩ <;> decide +kernel

end Sys2Proof.Tests
end

section
/-! PROOFS. How the words of `READ` and `WRITE` decode, and the unmapped addresses (R48, R54, R59, R60). -/

namespace Sys2Proof

/-! ### The fields of a word written from its fields (R54) -/

@[simp] theorem eventWord_kind (k : BitVec 2) (a : Addr) (d : Byte) : (eventWord k a d).kind = k :=
  (BitVec.extractLsb'_append_eq_of_le (by decide)).trans BitVec.extractLsb'_append_eq_left

@[simp] theorem eventWord_addr (k : BitVec 2) (a : Addr) (d : Byte) : (eventWord k a d).addr = a :=
  (BitVec.extractLsb'_append_eq_of_le (by decide)).trans BitVec.extractLsb'_append_eq_right

@[simp] theorem eventWord_data (k : BitVec 2) (a : Addr) (d : Byte) : (eventWord k a d).data = d :=
  BitVec.extractLsb'_append_eq_right

@[simp] theorem decodeEvent_writeWord (c : Cfg) (a : Addr) (d : Byte) :
    decodeEvent c (writeWord a d) = decodeWrite c a d := by
  simp [decodeEvent, writeWord]

@[simp] theorem decodeEvent_readWord (c : Cfg) (a : Addr) :
    decodeEvent c (readWord a) = decodeRead c a := by
  simp [decodeEvent, readWord]

/-! ### Which offsets find a register (R19, R35, R47, R48) -/

theorem notMem_writeOffsets_iff (x : Addr) :
    x ∉ writeOffsets ↔ x.toNat = 0x14 ∨ x.toNat = 0x16 ∨ 0x18 ≤ x.toNat := by
  simp only [writeOffsets, List.mem_cons, List.not_mem_nil, or_false, not_or]
  bv_omega

theorem decodeWrite_eq_wrUnmapped_iff (c : Cfg) (a : Addr) (d : Byte) :
    decodeWrite c a d = .wrUnmapped a ↔ a - c.apuBase ∉ writeOffsets := by
  rw [notMem_writeOffsets_iff, decodeWrite]
  split
  case h_23 => -- no register's offset
    simp_all only [imp_false, true_iff]
    omega
  all_goals simp [*]

theorem decodeRead_eq_rdUnmapped_iff (c : Cfg) (a : Addr) :
    decodeRead c a = .rdUnmapped a ↔ (a - c.apuBase).toNat ≠ 0x15 := by
  rw [← show statusOffset.toNat = 0x15 from rfl, ne_eq, BitVec.toNat_inj]
  simp [decodeRead]

/-- Settles O5. Below the base the offset wraps past the last register's, since all registers have 16-bit
addresses; from the base up it is the plain difference. -/
theorem unmappedAddressSet : Obligations.UnmappedAddressSet := by
  unfold Obligations.UnmappedAddressSet
  intro c a d hbase
  rw [decodeEvent_writeWord, decodeEvent_readWord, decodeWrite_eq_wrUnmapped_iff,
    notMem_writeOffsets_iff, decodeRead_eq_rdUnmapped_iff]
  rcases Nat.lt_or_ge a.toNat c.apuBase.toNat with hbelow | habove
  · have hoff : 0x18 ≤ (a - c.apuBase).toNat := by
      rw [BitVec.toNat_sub_of_lt hbelow]
      omega
    omega
  · have hoff : (a - c.apuBase).toNat = a.toNat - c.apuBase.toNat := BitVec.toNat_sub_of_le habove
    omega

end Sys2Proof
end

section
/-! PROOFS. What the accesses to each register decode to (R54, R56), ignored data bits (R62), the accesses that
find no register (R59, R60), and the opcode map with its priority (R55, R66). -/

namespace Sys2Proof

open Sys2Proof.Machine

/-! ### Decoding by kind (R54) -/

theorem eventWord_fields (e : EventWord) : eventWord e.kind e.addr e.data = e := by
  simp only [eventWord, EventWord.kind, EventWord.addr, EventWord.data]
  rw [BitVec.extractLsb'_append_extractLsb'_eq_extractLsb' (by rfl),
    BitVec.extractLsb'_append_extractLsb'_eq_extractLsb' (by rfl), BitVec.extractLsb'_eq_self]

theorem eventWord_inj {k k' : BitVec 2} {a a' : Addr} {d d' : Byte} :
    eventWord k a d = eventWord k' a' d' ↔ k = k' ∧ a = a' ∧ d = d' := by
  refine ⟨fun h => ⟨?_, ?_, ?_⟩, by rintro ⟨rfl, rfl, rfl⟩; rfl⟩
  · simpa using congrArg EventWord.kind h
  · simpa using congrArg EventWord.addr h
  · simpa using congrArg EventWord.data h

@[simp] theorem decodeEvent_kind_zero (c : Cfg) (a : Addr) (d : Byte) :
    decodeEvent c (eventWord 0#2 a d) = .clk := by
  simp [decodeEvent]

@[simp] theorem decodeEvent_kind_one (c : Cfg) (a : Addr) (d : Byte) :
    decodeEvent c (eventWord 1#2 a d) = decodeRead c a := by
  simp [decodeEvent]

@[simp] theorem decodeEvent_kind_two (c : Cfg) (a : Addr) (d : Byte) :
    decodeEvent c (eventWord 2#2 a d) = decodeWrite c a d :=
  decodeEvent_writeWord c a d

@[simp] theorem decodeEvent_kind_three (c : Cfg) (a : Addr) (d : Byte) :
    decodeEvent c (eventWord 3#2 a d) = .reset := by
  simp [decodeEvent]

@[simp] theorem decodeRead_status (c : Cfg) : decodeRead c (c.apuBase + 0x15#16) = .rdStatus := by
  simp [decodeRead, statusOffset]

theorem decodeRead_of_ne_status {c : Cfg} {a : Addr} (h : a ≠ c.apuBase + 0x15) :
    decodeRead c a = .rdUnmapped a := by
  rw [decodeRead, if_neg (by rwa [statusOffset, sub_eq_iff_eq_add'])]

theorem decodeWrite_of_no_register {c : Cfg} {a : Addr} (d : Byte)
    (h : ∀ off ∈ writeOffsets, a ≠ c.apuBase + off) : decodeWrite c a d = .wrUnmapped a :=
  (decodeWrite_eq_wrUnmapped_iff c a d).2 fun hmem => h _ hmem (add_sub_cancel _ _).symm

/-! ### The register formats (R56) -/

/-- Settles O4. The address of a register, less the base, is the register's offset, whatever the base. -/
theorem registerFormatsSplitData : Obligations.RegisterFormatsSplitData := by
  unfold Obligations.RegisterFormatsSplitData
  intro c d
  have hstatus : decodeEvent c (eventWord 1 (c.apuBase + 0x15) d) = .rdStatus :=
    (decodeEvent_kind_one c _ d).trans (decodeRead_status c)
  have hread (a : Addr) (h : a ≠ c.apuBase + 0x15) : decodeEvent c (eventWord 1 a d) = .rdUnmapped a :=
    (decodeEvent_kind_one c a d).trans (decodeRead_of_ne_status h)
  refine ⟨?_, ?_, ?_, ?_, ?_, ?_, ?_, ?_, ?_, ?_, ?_, ?_, ?_, ?_, ?_, ?_, ?_, ?_, ?_, ?_, ?_, ?_,
    hstatus, hread, fun a => decodeEvent_kind_zero c a d, fun a => decodeEvent_kind_three c a d⟩
  all_goals simp [decodeWrite]

/-! ### Accesses without a register (R59, R60) -/

/-- Settles O22. The four events run to the state they ran on, but for the ports, by definition. -/
theorem accessesWithoutRegister : Obligations.AccessesWithoutRegister := by
  unfold Obligations.AccessesWithoutRegister
  intro c a d s
  exact ⟨by simp [decodeWrite], by simp [decodeWrite],
    fun h => (decodeEvent_writeWord c a d).trans (decodeWrite_of_no_register d h),
    fun h => (decodeEvent_kind_one c a d).trans (decodeRead_of_ne_status h), rfl, rfl, rfl, rfl⟩

/-! ### Ignored data bits (R62) -/

theorem extractLsb'_and_of_ones {w s n : Nat} (d : BitVec w) {m : BitVec w}
    (h : m.extractLsb' s n = BitVec.allOnes n) : (d &&& m).extractLsb' s n = d.extractLsb' s n := by
  rw [BitVec.extractLsb'_and, h, BitVec.and_allOnes]

theorem exec_total (i : Instr) (s : State) : ∃ t, exec i s = .next t := by
  cases i <;> exact ⟨_, rfl⟩

theorem exec_writeWord_congr {c : Cfg} {a : Addr} {d d' : Byte} (h : decodeWrite c a d = decodeWrite c a d')
    (s : State) : exec (decodeEvent c (writeWord a d)) s = exec (decodeEvent c (writeWord a d')) s := by
  rw [decodeEvent_writeWord, decodeEvent_writeWord, h]

/-- Settles O6. A mask that is all ones on a format's fields leaves the decoded event as it is. -/
theorem ignoredBitsHaveNoEffect : Obligations.IgnoredBitsHaveNoEffect := by
  unfold Obligations.IgnoredBitsHaveNoEffect
  intro c d s
  refine ⟨?_, ?_, ?_, ?_, ?_, ?_, ?_, ?_, ?_, fun e => exec_total _ s⟩
  all_goals exact exec_writeWord_congr (by simp [decodeWrite, extractLsb'_and_of_ones]) s

/-! ### When a row of the opcode map applies (R55) -/

/-- What a full-address row selects by: the kind, and the offset of its address from the default base. -/
def OpcodeRow.access (r : OpcodeRow) : BitVec 2 × Addr := (r.pattern.kind, r.pattern.addr - 0x4000)

/-- The kind of a word, and the offset of its address from the base. -/
def EventWord.access (c : Cfg) (e : EventWord) : BitVec 2 × Addr := (e.kind, e.addr - c.apuBase)

theorem and_fullMask (e : EventWord) : e &&& 0x3FFFF00 = eventWord e.kind e.addr 0 := by
  simpa [OpcodeRow.applies, eventWord_fields] using Laws.EncodedRow.applies_full "" e.kind e.addr e.data

theorem and_kindMask (e : EventWord) : e &&& 0x3000000 = eventWord e.kind 0 0 := by
  simpa [OpcodeRow.applies, eventWord_fields] using Laws.EncodedRow.applies_kind "" e.kind e.addr e.data

theorem fullAddressRows_form {r : OpcodeRow} (hr : r ∈ fullAddressRows) :
    r.mask = 0x3FFFF00 ∧ r.pattern = eventWord r.access.1 (0x4000 + r.access.2) 0
      ∧ r.access.2.toNat ≤ 0x17 := by
  revert r
  decide

theorem kindRows_form {r : OpcodeRow} (hr : r ∈ kindRows) :
    r.mask = 0x3000000 ∧ r.pattern = eventWord r.pattern.kind 0 0 := by
  revert r
  decide

theorem eventWord_toNat (k : BitVec 2) (a : Addr) (d : Byte) :
    (eventWord k a d).toNat = (k.toNat * 2 ^ 16 + a.toNat) * 2 ^ 8 + d.toNat := by
  simp only [eventWord, BitVec.toNat_append, Nat.shiftLeft_eq,
    Nat.mul_comm _ (2 ^ _), ← Nat.two_pow_add_eq_or_of_lt d.isLt, ← Nat.two_pow_add_eq_or_of_lt a.isLt]

/-- The rebase rule moves a row's address by the difference of the bases, and does not reach its kind. -/
theorem eventWord_rebase (c : Cfg) (k : BitVec 2) (off : Addr) (h : c.apuBase.toNat + off.toNat < 2 ^ 16)
    (hoff : off.toNat ≤ 0x17) :
    eventWord k (0x4000 + off) 0 + ((c.apuBase.setWidth 26 - 0x4000) <<< 8)
      = eventWord k (c.apuBase + off) 0 := by
  apply BitVec.eq_of_toNat_eq
  have hk := k.isLt
  have hmove : ((c.apuBase.setWidth 26 - 0x4000) <<< 8 : EventWord).toNat
      = (2 ^ 26 - 0x4000 + c.apuBase.toNat) % 2 ^ 26 * 2 ^ 8 % 2 ^ 26 := by
    simp [BitVec.toNat_sub, Nat.shiftLeft_eq]
  have hfrom : (0x4000 + off : Addr).toNat = 0x4000 + off.toNat := by bv_omega
  have hto : (c.apuBase + off).toNat = c.apuBase.toNat + off.toNat := by bv_omega
  rw [BitVec.toNat_add, hmove, eventWord_toNat, eventWord_toNat, hfrom, hto]
  omega

theorem rebase_applies {c : Cfg} (hbase : c.apuBase.toNat + 0x17 < 2 ^ 16) (e : EventWord) {r : OpcodeRow}
    (hr : r ∈ fullAddressRows) : (r.rebase c).applies e = (r.access == e.access c) := by
  obtain ⟨hmask, hpattern, hoff⟩ := fullAddressRows_form hr
  have hrebase : (r.rebase c).pattern = eventWord r.access.1 (c.apuBase + r.access.2) 0 := by
    rw [← eventWord_rebase c _ _ (by omega) hoff, ← hpattern]
    rfl
  have hiff : (r.rebase c).applies e = true ↔ r.access = e.access c := by
    rw [OpcodeRow.applies, hrebase, show (r.rebase c).mask = _ from hmask, and_fullMask, beq_iff_eq,
      eventWord_inj, Prod.ext_iff, EventWord.access, eq_sub_iff_add_eq']
    tauto
  rw [Bool.eq_iff_iff, hiff, beq_iff_eq]

theorem kindRow_applies (e : EventWord) {r : OpcodeRow} (hr : r ∈ kindRows) :
    r.applies e = (r.pattern.kind == e.kind) := by
  obtain ⟨hmask, hpattern⟩ := kindRows_form hr
  rw [OpcodeRow.applies, hmask, and_kindMask, hpattern, Bool.eq_iff_iff, beq_iff_eq, beq_iff_eq, eventWord_inj]
  simp [eq_comm]

/-! ### The rows that apply to a word -/

/-- The full-address rows an access selects. -/
def registerRows (x : BitVec 2 × Addr) : List OpcodeRow := fullAddressRows.filter (·.access == x)

/-- The kind rows a kind selects. -/
def rowsOfKind (k : BitVec 2) : List OpcodeRow := kindRows.filter (·.pattern.kind == k)

theorem filter_rebased_applies {c : Cfg} (hbase : c.apuBase.toNat + 0x17 < 2 ^ 16) (e : EventWord) :
    (fullAddressRows.map (·.rebase c)).filter (·.applies e) = (registerRows (e.access c)).map (·.rebase c) := by
  rw [List.filter_map]
  exact congrArg _ (List.filter_congr fun r hr => rebase_applies hbase e hr)

theorem filter_kindRows_applies (e : EventWord) : kindRows.filter (·.applies e) = rowsOfKind e.kind :=
  List.filter_congr fun _ hr => kindRow_applies e hr

/-- No two full-address rows select the same access. -/
theorem length_registerRows_le_one (x : BitVec 2 × Addr) : (registerRows x).length ≤ 1 := by
  have hnodup : (fullAddressRows.map OpcodeRow.access).Nodup := by decide
  have hcount := List.nodup_iff_count_le_one.1 hnodup x
  rwa [List.count, List.countP_map, List.countP_eq_length_filter] at hcount

theorem length_rowsOfKind (k : BitVec 2) : (rowsOfKind k).length = 1 := by
  revert k
  decide

/-- The mnemonic of the row with priority: the register's row if there is one, else the kind's. -/
def selectedMnemonic (x : BitVec 2 × Addr) : Option String :=
  ((registerRows x).head?.or (rowsOfKind x.1).head?).map OpcodeRow.mnemonic

theorem head_applicableRows_mnemonic {c : Cfg} (hbase : c.apuBase.toNat + 0x17 < 2 ^ 16) (e : EventWord) :
    (applicableRows c e).head?.map OpcodeRow.mnemonic = selectedMnemonic (e.access c) := by
  rw [applicableRows, List.filter_append, filter_rebased_applies hbase, filter_kindRows_applies,
    List.head?_append, List.head?_map, Option.map_or, Option.map_map, selectedMnemonic, Option.map_or]
  rfl

theorem fullAddressRow_access {r : OpcodeRow} (hr : r ∈ fullAddressRows) :
    r.access.1 = 2 ∧ r.access.2 ∈ writeOffsets ∨ r.access = (1, statusOffset) := by
  revert r
  decide

theorem selectedMnemonic_of_no_register {x : BitVec 2 × Addr} (hwrite : ¬ (x.1 = 2 ∧ x.2 ∈ writeOffsets))
    (hread : x ≠ (1, statusOffset)) :
    selectedMnemonic x = (rowsOfKind x.1).head?.map OpcodeRow.mnemonic := by
  have hnil : registerRows x = [] := by
    rw [registerRows, List.filter_eq_nil_iff]
    intro r hr hx
    obtain rfl := beq_iff_eq.1 hx
    exact (fullAddressRow_access hr).elim hwrite hread
  rw [selectedMnemonic, hnil]
  rfl

/-! ### The decoder selects the row with priority (R55) -/

theorem decodeRead_mnemonic (c : Cfg) (a : Addr) :
    some (decodeRead c a).mnemonic = selectedMnemonic (1, a - c.apuBase) := by
  rw [decodeRead]
  split
  case isTrue h => rw [h]; rfl
  case isFalse h => rw [selectedMnemonic_of_no_register (by simp) (by simpa using h)]; rfl

theorem decodeWrite_register_mnemonic (c : Cfg) (d : Byte) :
    ∀ off ∈ writeOffsets,
      some (decodeWrite c (c.apuBase + off) d).mnemonic = selectedMnemonic (2, off) := by
  intro off hoff
  rw [decodeWrite, add_sub_cancel_left]
  fin_cases hoff <;> rfl

theorem decodeWrite_mnemonic (c : Cfg) (a : Addr) (d : Byte) :
    some (decodeWrite c a d).mnemonic = selectedMnemonic (2, a - c.apuBase) := by
  by_cases h : a - c.apuBase ∈ writeOffsets
  · simpa using decodeWrite_register_mnemonic c d _ h
  · rw [(decodeWrite_eq_wrUnmapped_iff c a d).2 h,
      selectedMnemonic_of_no_register (fun hx => h hx.2) (by simp)]
    rfl

theorem decodeEvent_mnemonic (c : Cfg) (k : BitVec 2) (a : Addr) (d : Byte) :
    some (decodeEvent c (eventWord k a d)).mnemonic = selectedMnemonic (k, a - c.apuBase) := by
  have hkind : k = 0#2 ∨ k = 1#2 ∨ k = 2#2 ∨ k = 3#2 := by revert k; decide
  obtain rfl | rfl | rfl | rfl := hkind
  · rw [decodeEvent_kind_zero, selectedMnemonic_of_no_register (by simp) (by simp)]; rfl
  · rw [decodeEvent_kind_one]; exact decodeRead_mnemonic c a
  · rw [decodeEvent_kind_two]; exact decodeWrite_mnemonic c a d
  · rw [decodeEvent_kind_three, selectedMnemonic_of_no_register (by simp) (by simp)]; rfl

/-- Settles O3. A row's test on a word is a test on the word's kind and offset; no two full-address rows share
these, and the decoder branches as these rows do. -/
theorem decodeFollowsOpcodeMap : Obligations.DecodeFollowsOpcodeMap := by
  unfold Obligations.DecodeFollowsOpcodeMap
  intro c e hbase
  refine ⟨?_, ?_, ?_⟩
  · rw [head_applicableRows_mnemonic hbase, EventWord.access, ← decodeEvent_mnemonic c e.kind e.addr e.data,
      eventWord_fields]
  · rw [filter_rebased_applies hbase, List.length_map]
    exact length_registerRows_le_one _
  · rw [filter_kindRows_applies, length_rowsOfKind]

end Sys2Proof
end

section
/-! PROOFS. The sweep unit's target: the formula per sign, its range, and overflow (R80 to R82). -/

namespace Sys2Proof

open Sys2Proof.Machine

theorem sweepDelta_eq_div (p : Pulse) :
    sweepDelta p = p.timerPeriod.toNat / 2 ^ p.sweep.shiftCount.toNat :=
  Nat.shiftRight_eq_div_pow _ _

theorem sweepDelta_le_timerPeriod (p : Pulse) : sweepDelta p ≤ p.timerPeriod.toNat :=
  Nat.shiftRight_le _ _

theorem timerPeriod_le_2047 (p : Pulse) : p.timerPeriod.toNat ≤ 2047 :=
  Nat.le_of_lt_succ p.timerPeriod.isLt

theorem Machine.PulseUnit.extra_nonneg (u : PulseUnit) : 0 ≤ u.extra := by cases u <;> decide

theorem Machine.PulseUnit.extra_le_one (u : PulseUnit) : u.extra ≤ 1 := by cases u <;> decide

theorem sweepTarget_of_not_negate (u : PulseUnit) {p : Pulse} (h : p.sweep.negate = false) :
    sweepTarget u p = p.timerPeriod.toNat + sweepDelta p := by
  simp [sweepTarget, h]

theorem sweepTarget_of_negate (u : PulseUnit) {p : Pulse} (h : p.sweep.negate = true) :
    sweepTarget u p = p.timerPeriod.toNat - sweepDelta p - u.extra := by
  simp [sweepTarget, h]

/-- The shifted period never exceeds the period, so only unit 1's extra one can take the target below zero. -/
theorem neg_one_le_sweepTarget (u : PulseUnit) (p : Pulse) : -1 ≤ sweepTarget u p := by
  have hdelta := sweepDelta_le_timerPeriod p
  have hextra := u.extra_le_one
  cases hneg : p.sweep.negate
  case false => rw [sweepTarget_of_not_negate u hneg]; omega
  case true => rw [sweepTarget_of_negate u hneg]; omega

theorem sweepTarget_le_2047_of_negate (u : PulseUnit) {p : Pulse} (h : p.sweep.negate = true) :
    sweepTarget u p ≤ 2047 := by
  have hperiod := timerPeriod_le_2047 p
  have hextra := u.extra_nonneg
  rw [sweepTarget_of_negate u h]
  omega

theorem sweepTarget_le_4094 (u : PulseUnit) (p : Pulse) : sweepTarget u p ≤ 4094 := by
  cases hneg : p.sweep.negate
  case false =>
    have hperiod := timerPeriod_le_2047 p
    have hdelta := sweepDelta_le_timerPeriod p
    rw [sweepTarget_of_not_negate u hneg]
    omega
  case true => exact (sweepTarget_le_2047_of_negate u hneg).trans (by decide)

theorem sweepOverflow_eq_true_iff (u : PulseUnit) (p : Pulse) :
    sweepOverflow u p = true ↔ 2047 < sweepTarget u p :=
  decide_eq_true_iff

theorem sweepOverflow_of_negate (u : PulseUnit) {p : Pulse} (h : p.sweep.negate = true) :
    sweepOverflow u p = false :=
  decide_eq_false (sweepTarget_le_2047_of_negate u h).not_gt

/-- Settles O30. The formula is read off per sign of the sweep; the bounds follow from an 11-bit period and a
shifted period no larger than it. -/
theorem sweepTargetLaw : Obligations.SweepTargetLaw := by
  unfold Obligations.SweepTargetLaw
  intro u p
  rw [← sweepDelta_eq_div]
  refine ⟨sweepTarget_of_not_negate u, fun hneg => ⟨?unit1, ?unit2, sweepOverflow_of_negate u hneg⟩,
    neg_one_le_sweepTarget u p, sweepTarget_le_4094 u p, sweepOverflow_eq_true_iff u p⟩
  case unit1 => exact sweepTarget_of_negate .unit1 hneg
  case unit2 => rw [sweepTarget_of_negate .unit2 hneg, PulseUnit.extra, sub_zero]

end Sys2Proof
end

section
/-! PROOFS. The register writes of the pulse channels: what each does to a channel and to the machine
(R86 to R89). -/

namespace Sys2Proof

open Sys2Proof.Machine

/-! ### What a register write does to a pulse channel -/

/-- Loading touches the value only, and only of an enabled channel (R72, D13). -/
theorem Machine.LengthCounter.load_eq (c : Cfg) (l : LengthCounter) (enabled : Bool) (idx : BitVec 5) :
    l.load c enabled idx
      = { l with value := if enabled = true then c.lengthTable.get idx.toFin else l.value } := by
  cases enabled
  case false => exact LengthCounter.load_disabled c l idx
  case true => exact LengthCounter.load_enabled c l idx

theorem Machine.Pulse.writeCtrl_eq (p : Pulse) (duty : BitVec 2) (l k : Bool) (v : BitVec 4) :
    p.writeCtrl duty l k v
      = { p with dutySelect := duty, env := ⟨l, k, v, 15, v⟩, length := { p.length with haltFlag := l } } := by
  rw [Pulse.writeCtrl, Envelope.write_eq]

theorem Machine.Pulse.writeHigh_eq (c : Cfg) (p : Pulse) (enabled : Bool) (idx : BitVec 5) (h : BitVec 3) :
    p.writeHigh c enabled idx h
      = { p with
          timerPeriod := h ++ p.timerPeriod.extractLsb' 0 8
          dutyIndex := 0
          length := { p.length with
            value := if enabled = true then c.lengthTable.get idx.toFin else p.length.value } } := by
  rw [Pulse.writeHigh, periodWithHigh, LengthCounter.load_eq]

/-! ### The events: the write of the one channel, everything around it unchanged -/

section
variable (s : State)

@[simp] theorem Machine.exec_wrP1Ctrl (duty : BitVec 2) (l k : Bool) (v : BitVec 4) :
    exec (.wrP1Ctrl duty l k v) s = .next (s.update (s.apu.withP1 (s.apu.p1.writeCtrl duty l k v))) := rfl

@[simp] theorem Machine.exec_wrP1Sweep (e : Bool) (p : BitVec 3) (n : Bool) (h : BitVec 3) :
    exec (.wrP1Sweep e p n h) s = .next (s.update (s.apu.withP1 (s.apu.p1.writeSweep e p n h))) := rfl

@[simp] theorem Machine.exec_wrP1Lo (b : Byte) :
    exec (.wrP1Lo b) s = .next (s.update (s.apu.withP1 (s.apu.p1.writeLow b))) := rfl

@[simp] theorem Machine.exec_wrP1Hi (x : BitVec 5) (h : BitVec 3) :
    exec (.wrP1Hi x h) s
      = .next (s.update (s.apu.withP1 (s.apu.p1.writeHigh s.cfg s.apu.chanEnable.p1 x h))) := rfl

@[simp] theorem Machine.exec_wrP2Ctrl (duty : BitVec 2) (l k : Bool) (v : BitVec 4) :
    exec (.wrP2Ctrl duty l k v) s = .next (s.update (s.apu.withP2 (s.apu.p2.writeCtrl duty l k v))) := rfl

@[simp] theorem Machine.exec_wrP2Sweep (e : Bool) (p : BitVec 3) (n : Bool) (h : BitVec 3) :
    exec (.wrP2Sweep e p n h) s = .next (s.update (s.apu.withP2 (s.apu.p2.writeSweep e p n h))) := rfl

@[simp] theorem Machine.exec_wrP2Lo (b : Byte) :
    exec (.wrP2Lo b) s = .next (s.update (s.apu.withP2 (s.apu.p2.writeLow b))) := rfl

@[simp] theorem Machine.exec_wrP2Hi (x : BitVec 5) (h : BitVec 3) :
    exec (.wrP2Hi x h) s
      = .next (s.update (s.apu.withP2 (s.apu.p2.writeHigh s.cfg s.apu.chanEnable.p2 x h))) := rfl

end

/-! ### The obligations: the decode clauses are those of the register formats (R56) -/

/-- Settles O12. The envelope restarts with the volume just written. -/
theorem pulseControlWrite : Obligations.PulseControlWrite := by
  unfold Obligations.PulseControlWrite
  refine ⟨fun c d => ?decode, fun duty l k v s => ⟨?unit1, ?unit2⟩⟩
  case decode =>
    obtain ⟨hunit1, -, -, -, hunit2, -⟩ := registerFormatsSplitData c d
    exact ⟨hunit1, hunit2⟩
  case unit1 => rw [exec_wrP1Ctrl, Pulse.writeCtrl_eq]; rfl
  case unit2 => rw [exec_wrP2Ctrl, Pulse.writeCtrl_eq]; rfl

/-- Settles O13. Of the sweep unit's own fields, the divider alone is not written. -/
theorem pulseSweepWrite : Obligations.PulseSweepWrite := by
  unfold Obligations.PulseSweepWrite
  refine ⟨fun c d => ?decode, fun e p n h s => ⟨?unit1, ?unit2⟩⟩
  case decode =>
    obtain ⟨-, hunit1, -, -, -, hunit2, -⟩ := registerFormatsSplitData c d
    exact ⟨hunit1, hunit2⟩
  case unit1 => rw [exec_wrP1Sweep, Pulse.writeSweep]; rfl
  case unit2 => rw [exec_wrP2Sweep, Pulse.writeSweep]; rfl

/-- Settles O14. The high bits of the old period stand before the byte written (R57). -/
theorem pulsePeriodLowWrite : Obligations.PulsePeriodLowWrite := by
  unfold Obligations.PulsePeriodLowWrite
  intro c b s
  obtain ⟨-, -, hunit1, -, -, -, hunit2, -⟩ := registerFormatsSplitData c b
  refine ⟨hunit1, hunit2, ?unit1, ?unit2⟩
  case unit1 => rw [exec_wrP1Lo, Pulse.writeLow, periodWithLow]; rfl
  case unit2 => rw [exec_wrP2Lo, Pulse.writeLow, periodWithLow]; rfl

/-- Settles O15. Whether the channel is enabled decides the length counter's value and nothing else. -/
theorem pulsePeriodHighWrite : Obligations.PulsePeriodHighWrite := by
  unfold Obligations.PulsePeriodHighWrite
  refine ⟨fun c d => ?decode, fun x h s => ⟨?unit1, ?unit2⟩⟩
  case decode =>
    obtain ⟨-, -, -, hunit1, -, -, -, hunit2, -⟩ := registerFormatsSplitData c d
    exact ⟨hunit1, hunit2⟩
  case unit1 => rw [exec_wrP1Hi, Pulse.writeHigh_eq]; rfl
  case unit2 => rw [exec_wrP2Hi, Pulse.writeHigh_eq]; rfl

end Sys2Proof
end

section
/-! PROOFS. The register writes of the triangle channel: what each does to the channel and to the machine
(R93 to R95). -/

namespace Sys2Proof

open Sys2Proof.Machine

/-! ### What a register write does to the triangle channel -/

theorem Machine.Triangle.writeLow_eq (t : Triangle) (b : Byte) :
    t.writeLow b = { t with timerPeriod := t.timerPeriod.extractLsb' 8 3 ++ b } := by
  rw [Triangle.writeLow, periodWithLow]

/-- The reload flag is not among the fields written (D20). -/
theorem Machine.Triangle.writeHigh_eq (c : Cfg) (t : Triangle) (enabled : Bool) (idx : BitVec 5)
    (h : BitVec 3) :
    t.writeHigh c enabled idx h
      = { t with
          timerPeriod := h ++ t.timerPeriod.extractLsb' 0 8
          length := { t.length with
            value := if enabled = true then c.lengthTable.get idx.toFin else t.length.value } } := by
  rw [Triangle.writeHigh, periodWithHigh, LengthCounter.load_eq]

/-! ### The events: the write of the channel, everything around it unchanged -/

section
variable (s : State)

@[simp] theorem Machine.exec_wrTriCtrl (halt : Bool) (r : BitVec 7) :
    exec (.wrTriCtrl halt r) s = .next (s.update (s.apu.withTri (s.apu.tri.writeCtrl halt r))) := rfl

@[simp] theorem Machine.exec_wrTriLo (b : Byte) :
    exec (.wrTriLo b) s = .next (s.update (s.apu.withTri (s.apu.tri.writeLow b))) := rfl

@[simp] theorem Machine.exec_wrTriHi (x : BitVec 5) (h : BitVec 3) :
    exec (.wrTriHi x h) s
      = .next (s.update (s.apu.withTri (s.apu.tri.writeHigh s.cfg s.apu.chanEnable.tri x h))) := rfl

end

/-! ### The obligation -/

/-- Settles O16. The decode clauses are those of the register formats (R56); an event's next state is the
channel's write, put back in place. -/
theorem triangleWrites : Obligations.TriangleWrites := by
  unfold Obligations.TriangleWrites
  refine ⟨fun c d => ?decode, fun halt r b x h s => ⟨?ctrl, ?low, ?high⟩⟩
  case decode =>
    obtain ⟨-, -, -, -, -, -, -, -, hctrl, -, hlow, hhigh, -⟩ := registerFormatsSplitData c d
    exact ⟨hctrl, hlow, hhigh⟩
  case ctrl => rw [exec_wrTriCtrl, Triangle.writeCtrl]; rfl
  case low => rw [exec_wrTriLo, Triangle.writeLow_eq]; rfl
  case high => rw [exec_wrTriHi, Triangle.writeHigh_eq]; rfl

end Sys2Proof
end

section
/-! PROOFS. The register writes of the noise channel (R99 to R101), and the outputs of the five channels
(R77, R91, R98, R104, R114). -/

namespace Sys2Proof

open Sys2Proof.Machine

/-! ### What a register write does to the noise channel -/

theorem Machine.Noise.writeEnv_eq (n : Noise) (l k : Bool) (v : BitVec 4) :
    n.writeEnv l k v = { n with env := ⟨l, k, v, 15, v⟩, length := { n.length with haltFlag := l } } := by
  rw [Noise.writeEnv, Envelope.write_eq]

theorem Machine.Noise.writeLength_eq (c : Cfg) (n : Noise) (enabled : Bool) (idx : BitVec 5) :
    n.writeLength c enabled idx
      = { n with
          length := { n.length with
            value := if enabled = true then c.lengthTable.get idx.toFin else n.length.value } } := by
  rw [Noise.writeLength, LengthCounter.load_eq]

/-! ### The events: the write of the channel, everything around it unchanged -/

section
variable (s : State)

@[simp] theorem Machine.exec_wrNoiEnv (l k : Bool) (v : BitVec 4) :
    exec (.wrNoiEnv l k v) s = .next (s.update (s.apu.withNoise (s.apu.noise.writeEnv l k v))) := rfl

@[simp] theorem Machine.exec_wrNoiPeriod (m : Bool) (p : BitVec 4) :
    exec (.wrNoiPeriod m p) s = .next (s.update (s.apu.withNoise (s.apu.noise.writePeriod m p))) := rfl

@[simp] theorem Machine.exec_wrNoiLen (x : BitVec 5) :
    exec (.wrNoiLen x) s
      = .next (s.update (s.apu.withNoise (s.apu.noise.writeLength s.cfg s.apu.chanEnable.noise x))) := rfl

end

/-- Settles O17. The decode clauses are those of the register formats (R56); an event's next state is the
channel's write, put back in place. -/
theorem noiseWrites : Obligations.NoiseWrites := by
  unfold Obligations.NoiseWrites
  refine ⟨fun c d => ?decode, fun l k m v p x s => ⟨?env, ?period, ?len⟩⟩
  case decode =>
    obtain ⟨-, -, -, -, -, -, -, -, -, -, -, -, henv, -, hperiod, hlen, -⟩ := registerFormatsSplitData c d
    exact ⟨henv, hperiod, hlen⟩
  case env => rw [exec_wrNoiEnv, Noise.writeEnv_eq]; rfl
  case period => rw [exec_wrNoiPeriod, Noise.writePeriod]; rfl
  case len => rw [exec_wrNoiLen, Noise.writeLength_eq]; rfl

/-! ### Silent and sounding channels -/

theorem Machine.Pulse.output_of_muted (c : Cfg) {u : PulseUnit} {p : Pulse}
    (h : p.length.value = 0 ∨ p.timerPeriod.toNat < 8 ∨ 2047 < sweepTarget u p) : p.output c u = 0 := by
  rw [← sweepOverflow_eq_true_iff] at h
  rw [Pulse.output, if_pos h]

theorem Machine.Pulse.output_of_sounding (c : Cfg) {u : PulseUnit} {p : Pulse} (hlength : p.length.value ≠ 0)
    (hperiod : 8 ≤ p.timerPeriod.toNat) (htarget : sweepTarget u p ≤ 2047) :
    p.output c u = if dutyBit c p.dutySelect p.dutyIndex = true then p.env.output else 0 := by
  have hsounding : ¬ (p.length.value = 0 ∨ p.timerPeriod.toNat < 8 ∨ sweepOverflow u p = true) := by
    rw [sweepOverflow_eq_true_iff, not_or, not_or, not_lt, not_lt]
    exact ⟨hlength, hperiod, htarget⟩
  rw [Pulse.output, if_neg hsounding]

theorem Machine.Noise.output_of_muted {n : Noise}
    (h : n.shiftRegister.getLsbD 0 = true ∨ n.length.value = 0) : n.output = 0 :=
  if_pos h

theorem Machine.Noise.output_of_sounding {n : Noise} (hbit : n.shiftRegister.getLsbD 0 = false)
    (hlength : n.length.value ≠ 0) : n.output = n.env.output :=
  if_neg (not_or.2 ⟨Bool.eq_false_iff.1 hbit, hlength⟩)

/-- Settles O32. A pulse and the noise channel are silent or sound; sounding, they give the envelope's output,
which R77 chooses by the constant-volume flag. The triangle and the DMC are never silenced. -/
theorem channelOutputs : Obligations.ChannelOutputs := by
  unfold Obligations.ChannelOutputs
  intro c u p t n d
  refine ⟨Pulse.output_of_muted c, fun hlength hperiod htarget => ?pulse, rfl, Noise.output_of_muted,
    fun hbit hlength => ?noise, rfl⟩
  case pulse => rw [Pulse.output_of_sounding c hlength hperiod htarget, dutyBit, Envelope.output]
  case noise => rw [Noise.output_of_sounding hbit hlength, Envelope.output]

end Sys2Proof
end

section
/-! PROOFS. The register writes of the DMC (R106 to R109), its timer and its output step (R110, R112). -/

namespace Sys2Proof

open Sys2Proof.Machine

/-! ### What is loaded from a configuration fits its field (R61, log 3) -/

theorem mul_byte_le (n : Nat) (b : Byte) : n * b.toNat ≤ n * 255 :=
  Nat.mul_le_mul_left n (Nat.le_of_lt_succ b.isLt)

section
variable {c : Cfg} (h : c.Wf)
include h

theorem Cfg.Wf.dmcReload_toNat (rateIndex : BitVec 4) :
    (dmcReload c rateIndex).toNat + 1 = c.dmcRate.get rateIndex.toFin := by
  obtain ⟨hpos, hfits⟩ := h.dmcRate_ok rateIndex.toFin
  rw [dmcReload, BitVec.toNat_ofNat, Nat.mod_eq_of_lt (by omega), Nat.sub_add_cancel hpos]

theorem Cfg.Wf.dmcSampleAddress_toNat (b : Byte) :
    (dmcSampleAddress c b).toNat = c.dmcAddrBase.toNat + c.dmcAddrStep * b.toNat := by
  have hlast := h.sampleAddress_lt
  have hdata := mul_byte_le c.dmcAddrStep b
  rw [dmcSampleAddress, BitVec.toNat_ofNat, Nat.mod_eq_of_lt (by omega)]

theorem Cfg.Wf.dmcSampleLength_toNat (b : Byte) :
    (dmcSampleLength c b).toNat = c.dmcLenStep * b.toNat + c.dmcLenBias := by
  obtain ⟨-, hlast⟩ := h.sampleLength_ok
  have hdata := mul_byte_le c.dmcLenStep b
  rw [dmcSampleLength, BitVec.toNat_ofNat, Nat.mod_eq_of_lt (by omega)]

end

theorem Config.ntsc_wf : Config.ntsc.Wf := by decide

/-! ### What a register write does to the DMC -/

theorem Machine.Dmc.writeCtrl_eq (d : Dmc) (irqEnable loop : Bool) (rateIndex : BitVec 4) :
    d.writeCtrl irqEnable loop rateIndex
      = { d with
          irqEnable := irqEnable
          loopFlag := loop
          rateIndex := rateIndex
          irqFlag := if irqEnable = false then false else d.irqFlag } := by
  cases irqEnable <;> rfl

/-! ### The events: the write of the channel, everything around it unchanged -/

section
variable (s : State)

@[simp] theorem Machine.exec_wrDmcCtrl (q l : Bool) (r : BitVec 4) :
    exec (.wrDmcCtrl q l r) s = .next (s.update (s.apu.withDmc (s.apu.dmc.writeCtrl q l r))) := rfl

@[simp] theorem Machine.exec_wrDmcLoad (v : BitVec 7) :
    exec (.wrDmcLoad v) s = .next (s.update (s.apu.withDmc (s.apu.dmc.writeLoad v))) := rfl

@[simp] theorem Machine.exec_wrDmcAddr (b : Byte) :
    exec (.wrDmcAddr b) s = .next (s.update (s.apu.withDmc (s.apu.dmc.writeAddr s.cfg b))) := rfl

@[simp] theorem Machine.exec_wrDmcLen (b : Byte) :
    exec (.wrDmcLen b) s = .next (s.update (s.apu.withDmc (s.apu.dmc.writeLength s.cfg b))) := rfl

end

/-- Settles O18. The decode clauses are those of the register formats (R56); an event's next state is the
channel's write, put back in place; the default configuration meets the constraints, so its address and
length are the general ones. -/
theorem dmcWrites : Obligations.DmcWrites := by
  unfold Obligations.DmcWrites
  refine ⟨fun c d => ?decode, fun q l r v b s => ⟨?ctrl, ?load,
    ⟨dmcSampleAddress s.cfg b, fun h => h.dmcSampleAddress_toNat b, fun hntsc => ?addr, ?execAddr⟩,
    ⟨dmcSampleLength s.cfg b, fun h => h.dmcSampleLength_toNat b, fun hntsc => ?len, ?execLen⟩⟩⟩
  case decode =>
    obtain ⟨-, -, -, -, -, -, -, -, -, -, -, -, -, -, -, -, hctrl, hload, haddr, hlen, -⟩ :=
      registerFormatsSplitData c d
    exact ⟨hctrl, hload, haddr, hlen⟩
  case ctrl => rw [exec_wrDmcCtrl, Dmc.writeCtrl_eq]; rfl
  case load => rw [exec_wrDmcLoad, Dmc.writeLoad]; rfl
  case addr => rw [hntsc]; exact Config.ntsc_wf.dmcSampleAddress_toNat b
  case execAddr => rw [exec_wrDmcAddr, Dmc.writeAddr]; rfl
  case len => rw [hntsc]; exact Config.ntsc_wf.dmcSampleLength_toNat b
  case execLen => rw [exec_wrDmcLen, Dmc.writeLength]; rfl

/-! ### The output step (R112) -/

theorem Machine.Dmc.stepLevel_toNat (d : Dmc) :
    d.stepLevel.toNat = if d.shiftRegister.getLsbD 0 = true then min 127 (d.outputLevel.toNat + 2)
      else d.outputLevel.toNat - 2 := by
  have hlevel := d.outputLevel.isLt
  rw [Dmc.stepLevel]
  split
  case isTrue => exact Nat.mod_eq_of_lt (by omega)
  case isFalse => exact Nat.mod_eq_of_lt (by omega)

theorem Machine.Dmc.outputStep_of_silent {d : Dmc} (h : d.silenceFlag = true) : d.outputStep = d :=
  if_pos h

theorem Machine.Dmc.outputStep_of_sounding {d : Dmc} (h : d.silenceFlag = false) :
    d.outputStep = { d with
      outputLevel := d.stepLevel
      shiftRegister := d.shiftRegister >>> 1
      bitsRemaining := d.bitsRemaining - 1 } :=
  if_neg (Bool.eq_false_iff.1 h)

/-- Settles O35. On a tick the output step acts on the state the refill leaves, and is the identity if that is
silent; the constraints make the reload value exact. -/
theorem dmcTimerAndOutputStep : Obligations.DmcTimerAndOutputStep := by
  unfold Obligations.DmcTimerAndOutputStep
  intro c s hwf
  refine ⟨dmcTimerClock_of_ne c s, fun hzero => ⟨dmcReload c s.apu.dmc.rateIndex, hwf.dmcReload_toNat _,
    _, rfl, _, dmcTimerClock_of_zero c s hzero, Dmc.outputStep_of_silent, fun hsounding =>
    ⟨_, Dmc.outputStep_of_sounding hsounding, Dmc.stepLevel_toNat _⟩⟩⟩

end Sys2Proof
end

section
/-! PROOFS. The frame sequencer: what each count does (R117), the two frame ticks with the rules of the units they
clock (R118, R119), and the frame-counter register (R116). -/

namespace Sys2Proof

open Sys2Proof.Machine

/-! ### Counts of the sequencer (R117)

Under the constraints the offsets rise strictly, so a count is at one of them at most. -/

theorem Machine.Apu.fsClock_of_fourStep (c : Cfg) {a : Apu} (h : a.frame.mode = .fourStep) :
    a.fsClock c = a.counted.fourStepAt c (a.frame.cycleCounter + 1).toNat := by
  rw [Apu.fsClock, h]
  rfl

theorem Machine.Apu.fsClock_of_fiveStep (c : Cfg) {a : Apu} (h : a.frame.mode = .fiveStep) :
    a.fsClock c = a.counted.fiveStepAt c (a.frame.cycleCounter + 1).toNat := by
  rw [Apu.fsClock, h]
  rfl

theorem Machine.FrameSequencer.endFourStep_eq (f : FrameSequencer) :
    f.endFourStep = { f with
      cycleCounter := 0
      irqFlag := if f.irqInhibit = false then true else f.irqFlag } := by
  have hflag : (f.irqFlag || !f.irqInhibit) = if f.irqInhibit = false then true else f.irqFlag := by
    cases f.irqInhibit
    case false => exact Bool.or_true _
    case true => exact Bool.or_false _
  rw [FrameSequencer.endFourStep, FrameSequencer.raiseIrq, hflag]

section
variable {c : Cfg} {n : Nat} (a : Apu)

theorem Machine.Apu.fourStepAt_of_ne (hA : n ≠ c.fsA) (hB : n ≠ c.fsB) (hC : n ≠ c.fsC) (hD : n ≠ c.fsD) :
    a.fourStepAt c n = a := by
  rw [Apu.fourStepAt, if_neg hA, if_neg hB, if_neg hC, if_neg hD]

theorem Machine.Apu.fiveStepAt_of_ne (hA : n ≠ c.fsA) (hB : n ≠ c.fsB) (hC : n ≠ c.fsC) (hD : n ≠ c.fsD)
    (hE : n ≠ c.fsE) : a.fiveStepAt c n = a := by
  rw [Apu.fiveStepAt, if_neg hA, if_neg hB, if_neg hC, if_neg hD, if_neg hE]

variable (hwf : c.Wf)
include hwf

theorem Machine.Apu.fourStepAt_quarter (h : n = c.fsA ∨ n = c.fsC) : a.fourStepAt c n = a.quarter := by
  have hrise := hwf.offsets
  rcases h with hA | hC
  · rw [Apu.fourStepAt, if_pos hA]
  · rw [Apu.fourStepAt, if_neg (by omega), if_neg (by omega), if_pos hC]

theorem Machine.Apu.fourStepAt_half (hB : n = c.fsB) : a.fourStepAt c n = a.quarter.half := by
  have hrise := hwf.offsets
  rw [Apu.fourStepAt, if_neg (by omega), if_pos hB]

theorem Machine.Apu.fourStepAt_end (hD : n = c.fsD) :
    a.fourStepAt c n = a.quarter.half.withFrame a.frame.endFourStep := by
  have hrise := hwf.offsets
  rw [Apu.fourStepAt, if_neg (by omega), if_neg (by omega), if_neg (by omega), if_pos hD]

theorem Machine.Apu.fiveStepAt_quarter (h : n = c.fsA ∨ n = c.fsC ∨ n = c.fsD) :
    a.fiveStepAt c n = a.quarter := by
  have hrise := hwf.offsets
  rcases h with hA | hC | hD
  · rw [Apu.fiveStepAt, if_pos hA]
  · rw [Apu.fiveStepAt, if_neg (by omega), if_neg (by omega), if_pos hC]
  · rw [Apu.fiveStepAt, if_neg (by omega), if_neg (by omega), if_neg (by omega), if_pos hD]

theorem Machine.Apu.fiveStepAt_half (hB : n = c.fsB) : a.fiveStepAt c n = a.quarter.half := by
  have hrise := hwf.offsets
  rw [Apu.fiveStepAt, if_neg (by omega), if_pos hB]

theorem Machine.Apu.fiveStepAt_end (hE : n = c.fsE) :
    a.fiveStepAt c n = a.quarter.half.withFrame a.frame.endFiveStep := by
  have hrise := hwf.offsets
  rw [Apu.fiveStepAt, if_neg (by omega), if_neg (by omega), if_neg (by omega), if_neg (by omega), if_pos hE]

end

/-- Settles O27. Each mode's clock is its comparison with the offsets, made after the count. -/
theorem frameSequencerClock : Obligations.FrameSequencerClock := by
  unfold Obligations.FrameSequencerClock
  intro c a hwf
  refine ⟨fun hmode => ?fourStep, fun hmode => ?fiveStep⟩
  case fourStep =>
    rw [Apu.fsClock_of_fourStep c hmode]
    refine ⟨Apu.fourStepAt_quarter _ hwf, Apu.fourStepAt_half _ hwf, fun hD => ?_, Apu.fourStepAt_of_ne _⟩
    rw [Apu.fourStepAt_end _ hwf hD, FrameSequencer.endFourStep_eq]
    rfl
  case fiveStep =>
    rw [Apu.fsClock_of_fiveStep c hmode]
    exact ⟨Apu.fiveStepAt_quarter _ hwf, Apu.fiveStepAt_half _ hwf, Apu.fiveStepAt_end _ hwf,
      Apu.fiveStepAt_of_ne _⟩

/-! ### The units a quarter-frame tick clocks (R79, R97) -/

/-- The clause of QuarterFrameTick about one envelope. -/
theorem Machine.Envelope.clock_rule (e : Envelope) :
    e.clock.loopFlag = e.loopFlag ∧ e.clock.constantFlag = e.constantFlag ∧ e.clock.volume = e.volume
    ∧ (e.divider = 0 → e.clock.divider = e.volume
      ∧ e.clock.decayCounter = (if e.decayCounter ≠ 0 then e.decayCounter - 1
          else if e.loopFlag = true then 15 else 0))
    ∧ (e.divider ≠ 0 → e.clock.divider = e.divider - 1 ∧ e.clock.decayCounter = e.decayCounter) := by
  refine ⟨e.clock_loopFlag, e.clock_constantFlag, e.clock_volume, fun hzero => ⟨?_, ?_⟩,
    fun hne => ⟨?_, ?_⟩⟩
  · rw [e.clock_divider, if_pos hzero]
  · rw [e.clock_decayCounter, if_pos hzero, Envelope.decay]
  · rw [e.clock_divider, if_neg hne]
  · rw [e.clock_decayCounter, if_neg hne]

theorem Machine.Triangle.linearClock_eq (t : Triangle) :
    t.linearClock = { t with
      linearCounter := if t.linearControlFlag = true then t.linearCounterReload
        else if t.linearCounter ≠ 0 then t.linearCounter - 1 else 0
      linearControlFlag := if t.length.haltFlag = false then false else t.linearControlFlag } := by
  have hrest : (if t.linearCounter ≠ 0 then t.linearCounter - 1 else t.linearCounter)
      = if t.linearCounter ≠ 0 then t.linearCounter - 1 else 0 :=
    ite_congr rfl (fun _ => rfl) not_not.1
  have hflag : (if t.length.haltFlag = true then t.linearControlFlag else false)
      = if t.length.haltFlag = false then false else t.linearControlFlag := by
    cases t.length.haltFlag <;> rfl
  rw [Triangle.linearClock, hrest, hflag]

/-- Settles O28. The tick writes the clocked units back and nothing else, by definition. -/
theorem quarterFrameTick : Obligations.QuarterFrameTick := by
  unfold Obligations.QuarterFrameTick
  intro a
  refine ⟨_, _, _, _, rfl, ?envelopes, a.tri.linearClock_eq⟩
  case envelopes =>
    simp only [List.forall_mem_cons]
    exact ⟨a.p1.env.clock_rule, a.p2.env.clock_rule, a.noise.env.clock_rule, List.forall_mem_nil _⟩

/-! ### The units a half-frame tick clocks (R73, R83) -/

/-- The clause of HalfFrameTick about one length counter. -/
theorem Machine.LengthCounter.clock_rule (l : LengthCounter) :
    l.clock.haltFlag = l.haltFlag
    ∧ l.clock.value.toNat = (if l.haltFlag = true then l.value.toNat else l.value.toNat - 1) :=
  ⟨l.clock_haltFlag, l.clock_value_toNat⟩

/-- The five conditions under which a half-frame tick applies the sweep target (R83). -/
def Machine.Pulse.appliesTarget (u : PulseUnit) (p : Pulse) : Prop :=
  p.sweep.divider = 0 ∧ p.sweep.enabled = true ∧ p.sweep.shiftCount ≠ 0 ∧ 0 ≤ sweepTarget u p
    ∧ sweepTarget u p ≤ 2047

theorem Machine.Pulse.sweptPeriod_of_not_applies {u : PulseUnit} {p : Pulse} (h : ¬ p.appliesTarget u) :
    p.sweptPeriod u = p.timerPeriod :=
  if_neg h

/-- A target that is applied fits the 11 bits of the period. -/
theorem Machine.Pulse.sweptPeriod_toNat_of_applies {u : PulseUnit} {p : Pulse} (h : p.appliesTarget u) :
    ((p.sweptPeriod u).toNat : Int) = sweepTarget u p := by
  have hswept : p.sweptPeriod u = BitVec.ofInt 11 (sweepTarget u p) := if_pos h
  obtain ⟨-, -, -, hnonneg, hle⟩ := h
  rw [hswept, BitVec.toNat_ofInt]
  omega

theorem Machine.Sweep.clockDivider_eq (w : Sweep) :
    w.clockDivider = { w with
      divider := if w.divider = 0 ∨ w.reloadPending = true then w.period else w.divider - 1
      reloadPending := false } := by
  by_cases h : w.divider = 0 ∨ w.reloadPending = true
  case pos => rw [Sweep.clockDivider, if_pos h, if_pos h]
  case neg => rw [← w.clockDivider_reloadPending, Sweep.clockDivider, if_neg h, if_neg h]

/-- The clause of HalfFrameTick about one pulse channel's period and sweep unit. -/
theorem Machine.Pulse.sweepClock_rule (u : PulseUnit) (p : Pulse) :
    (p.appliesTarget u → ((p.sweptPeriod u).toNat : Int) = sweepTarget u p)
    ∧ (¬ p.appliesTarget u → p.sweptPeriod u = p.timerPeriod)
    ∧ p.sweep.clockDivider = { p.sweep with
        divider := if p.sweep.divider = 0 ∨ p.sweep.reloadPending = true then p.sweep.period
          else p.sweep.divider - 1
        reloadPending := false } :=
  ⟨sweptPeriod_toNat_of_applies, sweptPeriod_of_not_applies, p.sweep.clockDivider_eq⟩

/-- Settles O29. The sweep unit does not read the length counter, so both act on the channel the tick began
with; the tick writes the clocked units back and nothing else, by definition. -/
theorem halfFrameTick : Obligations.HalfFrameTick := by
  unfold Obligations.HalfFrameTick
  intro a
  refine ⟨a.p1.length.clock, a.p2.length.clock, a.tri.length.clock, a.noise.length.clock,
    a.p1.sweptPeriod .unit1, a.p2.sweptPeriod .unit2, a.p1.sweep.clockDivider, a.p2.sweep.clockDivider,
    rfl, ?lengths, ?sweeps⟩
  case lengths =>
    simp only [List.forall_mem_cons]
    exact ⟨a.p1.length.clock_rule, a.p2.length.clock_rule, a.tri.length.clock_rule, a.noise.length.clock_rule,
      List.forall_mem_nil _⟩
  case sweeps =>
    simp only [List.forall_mem_cons]
    exact ⟨a.p1.sweepClock_rule .unit1, a.p2.sweepClock_rule .unit2, List.forall_mem_nil _⟩

/-! ### The frame-counter register (R116) -/

@[simp] theorem Machine.exec_wrFrame (m q : Bool) (s : State) :
    exec (.wrFrame m q) s = .next (s.update (s.apu.writeFrame m q)) := rfl

theorem Machine.Apu.writeFrame_fourStep (a : Apu) (q : Bool) :
    a.writeFrame false q
      = a.withFrame ⟨.fourStep, 0, q, if q = true then false else a.frame.irqFlag⟩ := rfl

theorem Machine.Apu.writeFrame_fiveStep (a : Apu) (q : Bool) :
    a.writeFrame true q
      = (a.withFrame ⟨.fiveStep, 0, q, if q = true then false else a.frame.irqFlag⟩).quarter.half := rfl

/-- Settles O21. The ticks of the 5-step mode act on the block with the sequencer's new fields. -/
theorem frameCounterWrite : Obligations.FrameCounterWrite := by
  unfold Obligations.FrameCounterWrite
  refine ⟨fun c d => by simp [decodeWrite], fun q s => ⟨?fourStep, ?fiveStep⟩⟩
  case fourStep => rw [exec_wrFrame, Apu.writeFrame_fourStep]; rfl
  case fiveStep => rw [exec_wrFrame, Apu.writeFrame_fiveStep]; rfl

end Sys2Proof
end

section
/-! PROOFS. The mixer (R122, R123). -/

namespace Sys2Proof

open Sys2Proof.Machine

theorem Machine.gated_le {w : Nat} (enable : Bool) (v : BitVec w) : gated enable v ≤ 2 ^ w - 1 := by
  cases enable
  case false => exact Nat.zero_le _
  case true => exact Nat.le_sub_one_of_lt v.isLt

theorem Machine.gated_cast {w : Nat} (enable : Bool) (v : BitVec w) :
    (gated enable v : Int) = if enable = true then (v.toNat : Int) else 0 :=
  Nat.cast_ite _ _ _

section
variable {c : Cfg} (h : 30 * c.mixWPulse + 15 * c.mixWTri + 15 * c.mixWNoise + 127 * c.mixWDmc ≤ 32767)
include h

/-- The weights' constraint (R123) is that five outputs at their greatest stay within a signed sample. -/
theorem Machine.Apu.mixLevel_le (a : Apu) : a.mixLevel c ≤ 32767 := by
  have hp1 := gated_le a.chanEnable.p1 (a.p1.output c .unit1)
  have hp2 := gated_le a.chanEnable.p2 (a.p2.output c .unit2)
  have hpulse := Nat.mul_le_mul_left c.mixWPulse (Nat.add_le_add hp1 hp2)
  have htri := Nat.mul_le_mul_left c.mixWTri (gated_le a.chanEnable.tri (a.tri.output c))
  have hnoise := Nat.mul_le_mul_left c.mixWNoise (gated_le a.chanEnable.noise a.noise.output)
  have hdmc := Nat.mul_le_mul_left c.mixWDmc (gated_le a.chanEnable.dmc a.dmc.output)
  rw [Apu.mixLevel]
  omega

theorem Machine.Apu.mix_toInt (a : Apu) : (a.mix c).toInt = a.mixLevel c := by
  have hle := a.mixLevel_le h
  have htoNat : (a.mix c).toNat = a.mixLevel c := Nat.mod_eq_of_lt (by omega)
  rw [BitVec.toInt_eq_toNat_of_lt (by omega), htoNat]

end

/-- Settles O36. The sum of the gated outputs fits a signed sample, so putting it in 16 bits loses nothing. -/
theorem mixIsWeightedSum : Obligations.MixIsWeightedSum := by
  unfold Obligations.MixIsWeightedSum
  intro c a hweights gate
  rw [Apu.mix_toInt hweights]
  refine ⟨?sum, Int.natCast_nonneg _⟩
  case sum =>
    rw [Apu.mixLevel]
    push_cast
    simp only [gated_cast, gate]

end Sys2Proof
end

section
/-! PROOFS. The clock event (R121): the address it presents, its accumulator, and the whole event. -/

namespace Sys2Proof

open Sys2Proof.Machine

/-! ### The address a clock presents (R111) -/

/-- Where the next fetch reads: the start of a sample that restarts itself, or the place reached. -/
def Machine.Dmc.fetchAddress (d : Dmc) (enabled : Bool) : Addr :=
  if d.bytesRemaining = 0 ∧ d.loopFlag ∧ enabled then d.sampleAddress else d.currentAddress

theorem Machine.Dmc.loopRestart_currentAddress (d : Dmc) (enabled : Bool) :
    (d.loopRestart enabled).currentAddress = d.fetchAddress enabled :=
  apply_ite Dmc.currentAddress _ _ _

section
variable (c : Cfg) (s : State)

/-- The address port changes exactly when a byte is read. -/
theorem Machine.dmcRefill_memAddr :
    (dmcRefill c s).out.memAddr = if (dmcRefill c s).memReads = s.memReads then s.out.memAddr
      else some (s.apu.dmc.fetchAddress s.apu.chanEnable.dmc) := by
  rcases dmcRefill_cases c s with ⟨_, hidle⟩ | ⟨_, _, hsilent⟩ | ⟨_, _, hfetch⟩
  · rw [hidle, if_pos rfl]
  · rw [hsilent, State.withDmc_memReads, if_pos rfl, State.withDmc_out]
  · rw [hfetch, Dmc.loopRestart_currentAddress, State.presentAddr_memReads, State.withDmc_memReads,
      if_neg (Nat.succ_ne_self _), State.presentAddr_out]

theorem Machine.dmcTimerClock_memAddr :
    (dmcTimerClock c s).out.memAddr = if (dmcTimerClock c s).memReads = s.memReads then s.out.memAddr
      else some (s.apu.dmc.fetchAddress s.apu.chanEnable.dmc) := by
  by_cases htick : s.apu.dmc.timerCounter = 0
  case pos => rw [dmcTimerClock_of_zero c s htick]; exact dmcRefill_memAddr c _
  case neg => rw [dmcTimerClock_of_ne c s htick, State.withDmc_memReads, if_pos rfl, State.withDmc_out]

/-- The event clears the ports before its DMC clock, which sees the DMC the event began with. -/
theorem Machine.clock_memAddr :
    (clock c s).out.memAddr = if (dmcTimerClock c s).memReads = s.memReads then none
      else (dmcTimerClock c s).out.memAddr := by
  have hdmc : (clock c s).out.memAddr
      = (dmcTimerClock c (s.update ((s.apu.fsClock c).halfRateTimers c))).out.memAddr := by
    rw [clock, sampleClock_eq, advance, State.withApu_out]
  obtain ⟨-, hreads⟩ := dmcTimerClock_congr c (s := s)
    (u := s.update ((s.apu.fsClock c).halfRateTimers c)) (by simp) (by simp) rfl rfl
  rw [hdmc, dmcTimerClock_memAddr, dmcTimerClock_memAddr, hreads]
  by_cases hread : (dmcTimerClock c s).memReads = s.memReads <;> simp [hread]

end

/-! ### The accumulator (R124) -/

theorem Machine.sampleStep_emits_iff {c : Cfg} {acc : BitVec 32} :
    (sampleStep c acc).2 = true ↔ c.clockRate ≤ acc.toNat + c.sampleRate := by
  rw [sampleStep]
  split
  case isTrue hreached => exact iff_of_true rfl hreached
  case isFalse hbelow => exact iff_of_false Bool.false_ne_true hbelow

section
variable {c : Cfg} (s : State) (hwf : c.Wf)
include hwf

theorem Machine.clock_of_no_sample (h : s.apu.sampleAcc.toNat + c.sampleRate < c.clockRate) :
    (clock c s).apu.sampleAcc.toNat = s.apu.sampleAcc.toNat + c.sampleRate
    ∧ (clock c s).out.sample = none := by
  have hsilent : ¬ (sampleStep c s.apu.sampleAcc).2 = true := mt sampleStep_emits_iff.1 (not_le.2 h)
  obtain ⟨hsum, -⟩ := sampleStep_toNat hwf s.apu.sampleAcc (by omega)
  rw [if_neg hsilent] at hsum
  rw [clock_sample, clock_sampleAcc, if_neg hsilent]
  exact ⟨hsum, rfl⟩

theorem Machine.clock_of_sample (h : c.clockRate ≤ s.apu.sampleAcc.toNat + c.sampleRate)
    (hacc : s.apu.sampleAcc.toNat < c.clockRate) :
    (clock c s).apu.sampleAcc.toNat = s.apu.sampleAcc.toNat + c.sampleRate - c.clockRate
    ∧ (clock c s).out.sample = some ((clock c s).apu.mix c) := by
  have hemits : (sampleStep c s.apu.sampleAcc).2 = true := sampleStep_emits_iff.2 h
  obtain ⟨hsum, -⟩ := sampleStep_toNat hwf s.apu.sampleAcc hacc
  rw [if_pos hemits] at hsum
  rw [clock_sample, clock_sampleAcc, if_pos hemits]
  exact ⟨Nat.eq_sub_of_add_eq hsum, rfl⟩

end

/-- Settles O25, from the laws of the clock part by part. -/
theorem clockEvent : Obligations.ClockEvent := by
  unfold Obligations.ClockEvent
  exact ⟨decodeEvent_kind_zero, fun s => ⟨clock s.cfg s, exec_clk s, clock_frame _ s, clock_p1 _ s,
    clock_p2 _ s, clock_tri _ s, clock_noise _ s, clock_dmc _ s, clock_memReads _ s, clock_phase _ s,
    clock_chanEnable _ s, clock_readByte _ s, clock_memAddr _ s, clock_of_no_sample s, clock_of_sample s⟩⟩

end Sys2Proof
end

section
/-! PROOFS. The status register: what a write does to the channels (R127), and the byte a read answers (R128). -/

namespace Sys2Proof

open Sys2Proof.Machine

/-! ### What a status write does to a channel (R127) -/

theorem Machine.LengthCounter.gate_eq (l : LengthCounter) (enable : Bool) :
    l.gate enable = { l with value := if enable = false then 0 else l.value } := by
  cases enable
  case false => exact l.gate_off
  case true => exact l.gate_on

/-- Only an enabled reader with nothing left of its sample starts again, address and count alike. -/
theorem Machine.Dmc.gate_eq (d : Dmc) (enable : Bool) :
    d.gate enable = { d with
      bytesRemaining := if enable = false then 0
        else if d.bytesRemaining = 0 then d.sampleLength else d.bytesRemaining
      currentAddress := if enable = true ∧ d.bytesRemaining = 0 then d.sampleAddress
        else d.currentAddress } := by
  cases enable
  case false => rfl
  case true =>
    by_cases hdone : d.bytesRemaining = 0#12
    case pos => simp [Dmc.gate, Dmc.restart, hdone]
    case neg => simp [Dmc.gate, hdone]

/-! ### The byte of a status read (R128) -/

theorem Machine.LengthCounter.active_iff (l : LengthCounter) : l.active = true ↔ l.value ≠ 0 :=
  bne_iff_ne

/-- The bits of the byte, bit 0 first. -/
def Machine.Apu.statusBits (a : Apu) : List Bool :=
  [a.p1.length.active, a.p2.length.active, a.tri.length.active, a.noise.length.active,
    a.dmc.bytesRemaining != 0, false, a.frame.irqFlag, a.dmc.irqFlag]

theorem ofBool_eq_concat_nil (b : Bool) : BitVec.ofBool b = BitVec.nil.concat b := by
  cases b <;> rfl

theorem Machine.Apu.statusByte_eq (a : Apu) : a.statusByte = BitVec.ofBoolListLE a.statusBits := by
  rw [Apu.statusByte, ofBool_eq_concat_nil a.dmc.irqFlag]
  rfl

theorem Machine.Apu.statusByte_getLsbD (a : Apu) (i : Nat) :
    a.statusByte.getLsbD i = a.statusBits.getD i false := by
  rw [Apu.statusByte_eq]
  exact BitVec.getLsbD_ofBoolListLE

/-! ### The two events -/

section
variable (s : State)

@[simp] theorem Machine.exec_wrStatus (b1 b2 bt bn bd : Bool) :
    exec (.wrStatus b1 b2 bt bn bd) s = .next (s.update (s.apu.writeStatus b1 b2 bt bn bd)) := rfl

@[simp] theorem Machine.exec_rdStatus :
    exec .rdStatus s
      = .next (s.answer (s.apu.withFrame s.apu.frame.clearIrq) s.apu.statusByte) := rfl

end

/-- Settles O19. The decode clause is that of the register formats (R56); the next state is the enables, the
gated channels and the acknowledged interrupt, put back in place. -/
theorem statusWrite : Obligations.StatusWrite := by
  unfold Obligations.StatusWrite
  refine ⟨fun c d => ?decode, fun b1 b2 bt bn bd s => ?write⟩
  case decode =>
    obtain ⟨-, -, -, -, -, -, -, -, -, -, -, -, -, -, -, -, -, -, -, -, hstatus, -⟩ :=
      registerFormatsSplitData c d
    exact hstatus
  case write =>
    rw [exec_wrStatus, Apu.writeStatus, Dmc.gate_eq]
    simp only [LengthCounter.gate_eq]
    rfl

/-- Settles O20. The byte answered is formed from the state read; the state written differs from it in the
frame flag alone. -/
theorem statusRead : Obligations.StatusRead := by
  unfold Obligations.StatusRead
  refine ⟨fun c d => ?decode, fun s => ⟨s.apu.statusByte, exec_rdStatus s, ?bits⟩⟩
  case decode => exact (decodeEvent_kind_one c _ d).trans (decodeRead_status c)
  case bits =>
    simp only [Apu.statusByte_getLsbD]
    exact ⟨rfl, rfl, rfl, bne_iff_ne, LengthCounter.active_iff _, LengthCounter.active_iff _,
      LengthCounter.active_iff _, LengthCounter.active_iff _⟩

end Sys2Proof
end

section
/-! PROOFS. Every event completes (R130); the interrupt line and the accesses that acknowledge its two sources
(R133, R137). -/

namespace Sys2Proof

open Sys2Proof.Machine

/-! ### Every event completes (R130) -/

/-- The idle step stays where it is; any other step is the event it applies. -/
theorem step_total (s : State) : ∃ t, step s = .next t := by
  cases hevents : s.events with
  | nil => exact ⟨s, step_idle hevents⟩
  | cons e rest => rw [step_event hevents]; exact exec_total _ _

/-- Settles O10. -/
theorem everyEventCompletes : Obligations.EveryEventCompletes := by
  unfold Obligations.EveryEventCompletes
  exact ⟨exec_total, step_total⟩

/-! ### The interrupt line (R133) -/

section
variable {a : Apu}

theorem Machine.Apu.irqLine_iff : a.irqLine = true ↔ a.frame.irqFlag = true ∨ a.dmc.irqFlag = true :=
  Bool.or_eq_true_iff

theorem Machine.Apu.irqLine_of_frame_clear (h : a.frame.irqFlag = false) : a.irqLine = a.dmc.irqFlag := by
  rw [Apu.irqLine, h, Bool.false_or]

theorem Machine.Apu.irqLine_of_dmc_clear (h : a.dmc.irqFlag = false) : a.irqLine = a.frame.irqFlag := by
  rw [Apu.irqLine, h, Bool.or_false]

end

/-! ### What an acknowledging access does to the flags (R137) -/

section
variable (a : Apu) (m q : Bool)

/-- The ticks of the 5-step mode leave the sequencer's fields as the write put them. -/
@[simp] theorem Machine.Apu.writeFrame_frame : (a.writeFrame m q).frame = a.frame.write m q := by
  cases m <;> rfl

@[simp] theorem Machine.Apu.writeFrame_dmc : (a.writeFrame m q).dmc = a.dmc := by
  cases m <;> rfl

end

@[simp] theorem Machine.FrameSequencer.write_inhibit_irqFlag (f : FrameSequencer) (m : Bool) :
    (f.write m true).irqFlag = false := rfl

@[simp] theorem Machine.Dmc.writeCtrl_disable_irqFlag (d : Dmc) (l : Bool) (r : BitVec 4) :
    (d.writeCtrl false l r).irqFlag = false := rfl

section
variable (a : Apu) (b1 b2 bt bn bd : Bool)

@[simp] theorem Machine.Apu.writeStatus_frame : (a.writeStatus b1 b2 bt bn bd).frame = a.frame := rfl

@[simp] theorem Machine.Apu.writeStatus_dmc_irqFlag :
    (a.writeStatus b1 b2 bt bn bd).dmc.irqFlag = false := rfl

end

/-- Settles O37. Each access clears one flag and leaves the other, so the line shows the other alone. -/
theorem interruptLineAndAcknowledge : Obligations.InterruptLineAndAcknowledge := by
  unfold Obligations.InterruptLineAndAcknowledge
  refine ⟨fun a => Apu.irqLine_iff, fun s => ⟨⟨_, exec_rdStatus s, ?statusRead⟩,
    fun m => ⟨_, exec_wrFrame m true s, ?frameWrite⟩,
    fun b1 b2 bt bn bd => ⟨_, exec_wrStatus s b1 b2 bt bn bd, ?statusWrite⟩,
    fun l r => ⟨_, exec_wrDmcCtrl s false l r, ?dmcWrite⟩⟩⟩
  case statusRead => exact Apu.irqLine_of_frame_clear rfl
  case frameWrite =>
    have hclear : (s.apu.writeFrame m true).frame.irqFlag = false := by simp
    rw [State.update_apu, Apu.irqLine_of_frame_clear hclear, Apu.writeFrame_dmc]
  case statusWrite => exact Apu.irqLine_of_dmc_clear (Apu.writeStatus_dmc_irqFlag _ _ _ _ _ _)
  case dmcWrite => exact Apu.irqLine_of_dmc_clear (Dmc.writeCtrl_disable_irqFlag _ _ _)

end Sys2Proof
end

section
/-! PROOFS. Encoding and decoding are inverse (R54 to R66), whatever is decoded is well formed (R55), the
transport of a word as bytes (log 7), and the event a step applies (R51). -/

namespace Sys2Proof

open Sys2Proof.Machine

/-! ### Decode of encode -/

/-- Settles O1. A register's offset selects its arm of the decoder, and the fields of the byte written are the
parts it was put together from; an unmapped access falls through because its address is no register's. -/
theorem decodeInvertsEncode : Obligations.DecodeInvertsEncode := by
  unfold Obligations.DecodeInvertsEncode
  intro c i hwf
  cases i
  case wrUnmapped a =>
    rw [encode, decodeEvent_writeWord, decodeWrite_eq_wrUnmapped_iff]
    simpa [Instr.wf] using hwf
  case rdUnmapped a =>
    rw [encode, decodeEvent_readWord, decodeRead, if_neg (by simpa [Instr.wf] using hwf)]
  case rdStatus => exact (decodeEvent_readWord c _).trans (decodeRead_status c)
  case clk => exact decodeEvent_kind_zero c 0 0
  case reset => exact decodeEvent_kind_three c 0 0
  all_goals
    simp only [encode, decodeEvent_writeWord, decodeWrite, add_sub_cancel_left, BitVec.reduceToNat, flag,
      BitVec.extractLsb'_append_eq_ite, BitVec.getLsbD_append] <;> simp

/-! ### What is decoded is well formed -/

theorem decodeWrite_wf (c : Cfg) (a : Addr) (d : Byte) : (decodeWrite c a d).wf c = true := by
  by_cases hreg : a - c.apuBase ∈ writeOffsets
  case pos =>
    rw [decodeWrite]
    generalize a - c.apuBase = off at hreg
    fin_cases hreg <;> rfl
  case neg =>
    rw [(decodeWrite_eq_wrUnmapped_iff c a d).2 hreg]
    simpa [Instr.wf] using hreg

theorem decodeRead_wf (c : Cfg) (a : Addr) : (decodeRead c a).wf c = true := by
  rw [decodeRead]
  split
  case isTrue => rfl
  case isFalse hne => simpa [Instr.wf] using hne

/-- Settles O2. Each kind has its decoder; only those of the accesses answer an event that can be ill formed. -/
theorem decodedEventsAreWellFormed : Obligations.DecodedEventsAreWellFormed := by
  unfold Obligations.DecodedEventsAreWellFormed
  intro c e
  rw [decodeEvent]
  split
  case h_1 => rfl
  case h_2 => exact decodeRead_wf c _
  case h_3 => exact decodeWrite_wf c _ _
  case h_4 => rfl

/-- Settles O7. -/
theorem knownWordsDecode : Obligations.KnownWordsDecode := by
  unfold Obligations.KnownWordsDecode
  decide

/-! ### Transport as bytes (log 7) -/

theorem bytesOf_four (w : Nat) : bytesOf 4 w = [BitVec.ofNat 8 w, BitVec.ofNat 8 (w / 256),
    BitVec.ofNat 8 (w / 256 / 256), BitVec.ofNat 8 (w / 256 / 256 / 256)] := rfl

theorem toNat_append_byte {n : Nat} (x : BitVec n) (b : Byte) : (x ++ b).toNat = 2 ^ 8 * x.toNat + b.toNat := by
  rw [BitVec.toNat_append, Nat.shiftLeft_eq, Nat.mul_comm, Nat.two_pow_add_eq_or_of_lt b.isLt]

/-- The low 26 bits of four bytes, put back in order, are the number the bytes were cut from. -/
theorem wordOf_bytes (w : Nat) :
    (BitVec.ofNat 8 (w / 256 / 256 / 256)).extractLsb' 0 2 ++ BitVec.ofNat 8 (w / 256 / 256)
      ++ BitVec.ofNat 8 (w / 256) ++ BitVec.ofNat 8 w = BitVec.ofNat 26 w := by
  apply BitVec.eq_of_toNat_eq
  simp only [toNat_append_byte, BitVec.extractLsb'_toNat, BitVec.toNat_ofNat, Nat.shiftRight_zero]
  omega
theorem spareBits_eq_zero_iff {w : Nat} (h : w < 2 ^ 32) :
    (BitVec.ofNat 8 (w / 256 / 256 / 256)).extractLsb' 2 6 = 0#6 ↔ w < 2 ^ 26 := by
  rw [← BitVec.toNat_inj]
  simp [BitVec.extractLsb'_toNat, Nat.shiftRight_eq_div_pow]
  omega

/-- What the decoder makes of the four bytes of a 32-bit number. -/
theorem decode_bytesOf (c : Cfg) {w : Nat} (h : w < 2 ^ 32) (rest : List Byte) :
    decode c (bytesOf 4 w ++ rest)
      = if w < 2 ^ 26 then .ok (decodeEvent c (BitVec.ofNat 26 w), rest) else .error .notAnEventWord := by
  simp only [bytesOf_four, List.cons_append, List.nil_append, decode, wordOf_bytes, spareBits_eq_zero_iff h]

theorem decode_of_length_lt (c : Cfg) {bs : List Byte} (h : bs.length < 4) : decode c bs = .error .truncated := by
  match bs with
  | [] | [_] | [_, _] | [_, _, _] => rfl
  | _ :: _ :: _ :: _ :: _ => simp at h; omega

/-- Settles O8. -/
theorem byteTransportCarriesWords : Obligations.ByteTransportCarriesWords := by
  unfold Obligations.ByteTransportCarriesWords
  refine ⟨fun c e rest => ?_, fun c w rest hge hlt => ?_, fun c bs => decode_of_length_lt c⟩
  · have hword := e.isLt
    rw [decode_bytesOf c (by omega), if_pos hword, BitVec.ofNat_toNat, BitVec.setWidth_eq]
  · rw [decode_bytesOf c hlt, if_neg (not_lt.2 hge)]

/-- Settles O9. -/
theorem stepAppliesOldestEvent : Obligations.StepAppliesOldestEvent := by
  unfold Obligations.StepAppliesOldestEvent
  refine ⟨fun s e rest => step_event, fun s i rest hwf hevents => ?_, fun s => step_idle⟩
  rw [step_event hevents, decodeInvertsEncode s.cfg i hwf]

end Sys2Proof
end

section
/-! PROOFS. What a clock does to the units with an invariant: the DMC, case by case (R110 to R112), the frame
sequencer's own fields (R117), the length counters (R73) and the noise shift register (R103). -/

namespace Sys2Proof

open Sys2Proof.Machine

/-! ### The DMC's clock, all it can do -/

/-- The DMC with its timer reloaded, as a tick leaves it. -/
def Machine.Dmc.reloaded (c : Cfg) (d : Dmc) : Dmc := { d with timerCounter := dmcReload c d.rateIndex }

/-- The output step writes the level and the bits still held, and nothing else. -/
theorem Machine.Dmc.outputStep_frame (d : Dmc) : ∃ v r n,
    d.outputStep = { d with outputLevel := v, shiftRegister := r, bitsRemaining := n } := by
  rw [Dmc.outputStep]
  split
  case isTrue => exact ⟨d.outputLevel, d.shiftRegister, d.bitsRemaining, rfl⟩
  case isFalse => exact ⟨_, _, _, rfl⟩

section
variable (d : Dmc)

@[simp] theorem Machine.Dmc.outputStep_loopFlag : d.outputStep.loopFlag = d.loopFlag := by
  obtain ⟨v, r, n, e⟩ := d.outputStep_frame; rw [e]
@[simp] theorem Machine.Dmc.outputStep_rateIndex : d.outputStep.rateIndex = d.rateIndex := by
  obtain ⟨v, r, n, e⟩ := d.outputStep_frame; rw [e]
@[simp] theorem Machine.Dmc.outputStep_sampleAddress : d.outputStep.sampleAddress = d.sampleAddress := by
  obtain ⟨v, r, n, e⟩ := d.outputStep_frame; rw [e]
@[simp] theorem Machine.Dmc.outputStep_sampleLength : d.outputStep.sampleLength = d.sampleLength := by
  obtain ⟨v, r, n, e⟩ := d.outputStep_frame; rw [e]
@[simp] theorem Machine.Dmc.outputStep_bytesRemaining : d.outputStep.bytesRemaining = d.bytesRemaining := by
  obtain ⟨v, r, n, e⟩ := d.outputStep_frame; rw [e]
@[simp] theorem Machine.Dmc.outputStep_irqFlag : d.outputStep.irqFlag = d.irqFlag := by
  obtain ⟨v, r, n, e⟩ := d.outputStep_frame; rw [e]

end

/-- The loop clause starts the sample again or does nothing. -/
theorem Machine.Dmc.loopRestart_cases (d : Dmc) (enabled : Bool) :
    (d.bytesRemaining = 0 ∧ d.loopFlag = true ∧ enabled = true ∧ d.loopRestart enabled = d.restart)
    ∨ (¬ (d.bytesRemaining = 0 ∧ d.loopFlag = true ∧ enabled = true) ∧ d.loopRestart enabled = d) := by
  by_cases h : d.bytesRemaining = 0 ∧ d.loopFlag = true ∧ enabled = true
  case pos => obtain ⟨hbytes, hloop, hen⟩ := h; exact .inl ⟨hbytes, hloop, hen, if_pos ⟨hbytes, hloop, hen⟩⟩
  case neg => exact .inr ⟨h, if_neg h⟩

@[simp] theorem Machine.Dmc.loopRestart_bitsRemaining (d : Dmc) (enabled : Bool) :
    (d.loopRestart enabled).bitsRemaining = d.bitsRemaining := by
  obtain ⟨-, -, -, e⟩ | ⟨-, e⟩ := d.loopRestart_cases enabled <;> rw [e]; rfl

/-- The loop clause does not look at the timer. -/
theorem Machine.Dmc.reloaded_loopRestart (c : Cfg) (d : Dmc) (enabled : Bool) :
    (d.reloaded c).loopRestart enabled = (d.loopRestart enabled).reloaded c := by
  rw [Dmc.loopRestart, Dmc.loopRestart, apply_ite (Dmc.reloaded c)]
  rfl

/-- Everything the DMC's clock can do: count, or on a tick play the next bit, fall silent, or fetch a byte and
play its first bit. -/
theorem Machine.dmcTimerClock_cases (c : Cfg) (s : State) :
    (s.apu.dmc.timerCounter ≠ 0
      ∧ (dmcTimerClock c s).apu.dmc = { s.apu.dmc with timerCounter := s.apu.dmc.timerCounter - 1 }
      ∧ (dmcTimerClock c s).memReads = s.memReads)
    ∨ (s.apu.dmc.timerCounter = 0 ∧ s.apu.dmc.bitsRemaining ≠ 0
      ∧ (dmcTimerClock c s).apu.dmc = (s.apu.dmc.reloaded c).outputStep
      ∧ (dmcTimerClock c s).memReads = s.memReads)
    ∨ (s.apu.dmc.timerCounter = 0 ∧ s.apu.dmc.bitsRemaining = 0
      ∧ (s.apu.dmc.loopRestart s.apu.chanEnable.dmc).bytesRemaining = 0
      ∧ (dmcTimerClock c s).apu.dmc = ((s.apu.dmc.loopRestart s.apu.chanEnable.dmc).reloaded c).starve
      ∧ (dmcTimerClock c s).memReads = s.memReads)
    ∨ (s.apu.dmc.timerCounter = 0 ∧ s.apu.dmc.bitsRemaining = 0
      ∧ (s.apu.dmc.loopRestart s.apu.chanEnable.dmc).bytesRemaining ≠ 0
      ∧ (∃ b, (dmcTimerClock c s).apu.dmc
        = (((s.apu.dmc.loopRestart s.apu.chanEnable.dmc).reloaded c).fetch c b).outputStep)
      ∧ (dmcTimerClock c s).memReads = s.memReads + 1) := by
  by_cases htick : s.apu.dmc.timerCounter = 0
  case neg => rw [dmcTimerClock_of_ne c s htick]; exact .inl ⟨htick, rfl, rfl⟩
  case pos =>
    have hdmc : (dmcTimerClock c s).apu.dmc
        = (dmcRefill c (s.withDmc (s.apu.dmc.reloaded c))).apu.dmc.outputStep := by
      rw [dmcTimerClock_of_zero c s htick]; rfl
    have hreads : (dmcTimerClock c s).memReads = (dmcRefill c (s.withDmc (s.apu.dmc.reloaded c))).memReads := by
      rw [dmcTimerClock_of_zero c s htick]; rfl
    rw [hdmc, hreads]
    have hcommute : (s.withDmc (s.apu.dmc.reloaded c)).apu.dmc.loopRestart s.apu.chanEnable.dmc
        = (s.apu.dmc.loopRestart s.apu.chanEnable.dmc).reloaded c := s.apu.dmc.reloaded_loopRestart c _
    have hrefill := dmcRefill_cases c (s.withDmc (s.apu.dmc.reloaded c))
    rw [show (s.withDmc (s.apu.dmc.reloaded c)).apu.chanEnable = s.apu.chanEnable from rfl, hcommute] at hrefill
    rcases hrefill with ⟨hbits, h⟩ | ⟨hbits, hbytes, h⟩ |
      ⟨hbits, hbytes, h⟩
    · rw [h]; exact .inr (.inl ⟨htick, hbits, rfl, rfl⟩)
    · rw [h]; exact .inr (.inr (.inl ⟨htick, hbits, hbytes, Dmc.outputStep_of_silent rfl, rfl⟩))
    · rw [h]; exact .inr (.inr (.inr ⟨htick, hbits, hbytes, ⟨_, rfl⟩, rfl⟩))

/-! ### The frame sequencer's own fields -/

section
variable {c : Cfg} (hwf : c.Wf) (a : Apu)
include hwf

/-- Only the count at the sequence's end does more to the sequencer than count. -/
theorem Machine.Apu.fourStepAt_frame (n : Nat) :
    (a.fourStepAt c n).frame = if n = c.fsD then a.frame.endFourStep else a.frame := by
  split
  case isTrue hD => rw [Apu.fourStepAt_end a hwf hD]; rfl
  case isFalse hD => unfold Apu.fourStepAt; split_ifs <;> rfl

theorem Machine.Apu.fiveStepAt_frame (n : Nat) :
    (a.fiveStepAt c n).frame = if n = c.fsE then a.frame.endFiveStep else a.frame := by
  split
  case isTrue hE => rw [Apu.fiveStepAt_end a hwf hE]; rfl
  case isFalse hE => unfold Apu.fiveStepAt; split_ifs <;> rfl

theorem Machine.Apu.fsClock_frame_of_fourStep (hmode : a.frame.mode = .fourStep) :
    (a.fsClock c).frame = if (a.frame.cycleCounter + 1).toNat = c.fsD then a.counted.frame.endFourStep
      else a.counted.frame := by
  rw [Apu.fsClock_of_fourStep c hmode, Apu.fourStepAt_frame hwf]

theorem Machine.Apu.fsClock_frame_of_fiveStep (hmode : a.frame.mode = .fiveStep) :
    (a.fsClock c).frame = if (a.frame.cycleCounter + 1).toNat = c.fsE then a.counted.frame.endFiveStep
      else a.counted.frame := by
  rw [Apu.fsClock_of_fiveStep c hmode, Apu.fiveStepAt_frame hwf]

end

/-! ### Length counters -/

section
variable (c : Cfg) (a : Apu) (s : State)

/-- A sequencer clock leaves a length counter or clocks it. -/
theorem Machine.Apu.fsClock_length_cases :
    ((a.fsClock c).p1.length = a.p1.length ∧ (a.fsClock c).p2.length = a.p2.length
      ∧ (a.fsClock c).tri.length = a.tri.length ∧ (a.fsClock c).noise.length = a.noise.length)
    ∨ ((a.fsClock c).p1.length = a.p1.length.clock ∧ (a.fsClock c).p2.length = a.p2.length.clock
      ∧ (a.fsClock c).tri.length = a.tri.length.clock ∧ (a.fsClock c).noise.length = a.noise.length.clock) := by
  rcases a.fsClock_cases c with h | h | h | ⟨_, _, h⟩ | ⟨_, _, h⟩ <;> simp [h]

/-- The half-rate timers leave the length counters. -/
@[simp] theorem Machine.clock_p1_length : (clock c s).apu.p1.length = (s.apu.fsClock c).p1.length := by
  rw [clock_p1]; split <;> rfl
@[simp] theorem Machine.clock_p2_length : (clock c s).apu.p2.length = (s.apu.fsClock c).p2.length := by
  rw [clock_p2]; split <;> rfl
@[simp] theorem Machine.clock_tri_length : (clock c s).apu.tri.length = (s.apu.fsClock c).tri.length := by
  rw [clock_tri]; split <;> rfl
@[simp] theorem Machine.clock_noise_length : (clock c s).apu.noise.length = (s.apu.fsClock c).noise.length := by
  rw [clock_noise]; split <;> rfl

/-- A clock leaves every length counter or clocks every one. -/
theorem Machine.clock_length_cases :
    ((clock c s).apu.p1.length = s.apu.p1.length ∧ (clock c s).apu.p2.length = s.apu.p2.length
      ∧ (clock c s).apu.tri.length = s.apu.tri.length ∧ (clock c s).apu.noise.length = s.apu.noise.length)
    ∨ ((clock c s).apu.p1.length = s.apu.p1.length.clock ∧ (clock c s).apu.p2.length = s.apu.p2.length.clock
      ∧ (clock c s).apu.tri.length = s.apu.tri.length.clock
      ∧ (clock c s).apu.noise.length = s.apu.noise.length.clock) := by
  simpa using s.apu.fsClock_length_cases c

end

/-! ### The noise channel -/

/-- What the shift register's step feeds back into its top bit. -/
def lfsrFeedback (mode : Bool) (r : BitVec 15) : Bool :=
  r.getLsbD 0 ^^ (if mode = true then r.getLsbD 6 else r.getLsbD 1)

theorem lfsrStep_getLsbD (mode : Bool) (r : BitVec 15) (j : Nat) :
    (lfsrStep mode r).getLsbD j = if j < 14 then r.getLsbD (j + 1) else (j == 14 && lfsrFeedback mode r) := by
  rw [lfsrStep, BitVec.getLsbD_append]
  split
  case isTrue h => rw [BitVec.getLsbD_extractLsb', decide_eq_true h, Bool.true_and, Nat.add_comm]
  case isFalse h =>
    rw [BitVec.getLsbD_ofBool]
    exact congrArg (· && _) (decide_eq_decide.2 (by omega))

/-- The register is shifted whole, so only a register of zeros gives zeros: its low bit shows in the feedback,
against a tap that is zero. -/
theorem lfsrStep_ne_zero (mode : Bool) {r : BitVec 15} (h : r ≠ 0) : lfsrStep mode r ≠ 0 := by
  intro hzero
  have hbit (j : Nat) : (if j < 14 then r.getLsbD (j + 1) else (j == 14 && lfsrFeedback mode r)) = false := by
    rw [← lfsrStep_getLsbD, hzero, BitVec.ofNat_eq_ofNat, BitVec.getLsbD_zero]
  have hhigh (j : Nat) (hj : j < 14) : r.getLsbD (j + 1) = false := by simpa [hj] using hbit j
  have htap : (if mode = true then r.getLsbD 6 else r.getLsbD 1) = false := by
    cases mode
    case false => exact hhigh 0 (by decide)
    case true => exact hhigh 5 (by decide)
  have hlow : r.getLsbD 0 = false := by
    have hfeedback : lfsrFeedback mode r = false := hbit 14
    rwa [lfsrFeedback, htap, Bool.xor_false] at hfeedback
  refine h (BitVec.eq_of_getLsbD_eq fun j hj => ?_)
  rw [BitVec.ofNat_eq_ofNat, BitVec.getLsbD_zero]
  cases j with
  | zero => exact hlow
  | succ j => exact hhigh j (by omega)

section
variable (c : Cfg) (a : Apu) (s : State)

/-- The frame ticks leave all of the noise channel but its envelope and length counter. -/
@[simp] theorem Machine.Apu.fsClock_noise_shiftRegister :
    (a.fsClock c).noise.shiftRegister = a.noise.shiftRegister := by
  rcases a.fsClock_cases c with h | h | h | ⟨_, _, h⟩ | ⟨_, _, h⟩ <;> simp [h]

@[simp] theorem Machine.Apu.fsClock_noise_timerCounter :
    (a.fsClock c).noise.timerCounter = a.noise.timerCounter := by
  rcases a.fsClock_cases c with h | h | h | ⟨_, _, h⟩ | ⟨_, _, h⟩ <;> simp [h]

theorem Machine.Noise.timerTick_of_zero {n : Noise} (h : n.timerCounter = 0) :
    n.timerTick c = { n with
      timerCounter := noiseReload c n.periodIndex
      shiftRegister := lfsrStep n.modeFlag n.shiftRegister } := by
  rw [Noise.timerTick, timerClock_zero h]; rfl

theorem Machine.Noise.timerTick_of_ne {n : Noise} (h : n.timerCounter ≠ 0) :
    n.timerTick c = { n with timerCounter := n.timerCounter - 1 } := by
  rw [Noise.timerTick, timerClock_ne h]; rfl

end

end Sys2Proof
end

section
/-! PROOFS. The invariants of R41: stated of the units of the block, kept by each event, and so by each step,
under every configuration that meets the constraints. -/

namespace Sys2Proof

open Sys2Proof.Machine

/-! ### The invariants as facts about the units -/

/-- (h) of R41, of one length counter: a disabled channel's counter is zero. -/
def Machine.LengthCounter.GatedBy (l : LengthCounter) (enabled : Bool) : Prop := enabled = false → l.value = 0

/-- (b) to (e) of R41. -/
structure Machine.Dmc.Consistent (d : Dmc) : Prop where
  silentEmpty : d.silenceFlag = true → d.bitsRemaining = 0
  bitsBound : d.bitsRemaining.toNat ≤ 8
  sampleLengthPos : 1 ≤ d.sampleLength.toNat
  levelBound : d.outputLevel.toNat ≤ 127

/-- (f) of R41. -/
structure Machine.FrameSequencer.WithinSequence (c : Cfg) (f : FrameSequencer) : Prop where
  fourStep : f.mode = .fourStep → f.cycleCounter.toNat < c.fsD
  fiveStep : f.mode = .fiveStep → f.cycleCounter.toNat < c.fsE

/-- What the invariants say of the block. -/
structure Machine.Apu.Consistent (c : Cfg) (a : Apu) : Prop where
  noiseNonzero : a.noise.shiftRegister ≠ 0
  dmc : a.dmc.Consistent
  frame : a.frame.WithinSequence c
  accBound : a.sampleAcc.toNat < c.clockRate
  gatedP1 : a.p1.length.GatedBy a.chanEnable.p1
  gatedP2 : a.p2.length.GatedBy a.chanEnable.p2
  gatedTri : a.tri.length.GatedBy a.chanEnable.tri
  gatedNoise : a.noise.length.GatedBy a.chanEnable.noise
  gatedDmc : a.chanEnable.dmc = false → a.dmc.bytesRemaining = 0

/-- The invariants are those of the block, the constraints on the configuration, and the form of the memory. -/
theorem inv_iff (s : State) :
    Inv s ↔ s.cfg.Wf ∧ s.apu.Consistent s.cfg ∧ Memory.wf s.mem = true := by
  constructor
  · rintro ⟨hwf, hnoise, hsilent, hbits, hlen, hlevel, hfour, hfive, hacc, h1, h2, ht, hn, hd, hmem⟩
    exact ⟨hwf, ⟨hnoise, ⟨hsilent, hbits, hlen, hlevel⟩, ⟨hfour, hfive⟩, hacc, h1, h2, ht, hn, hd⟩, hmem⟩
  · rintro ⟨hwf, ⟨hnoise, ⟨hsilent, hbits, hlen, hlevel⟩, ⟨hfour, hfive⟩, hacc, h1, h2, ht, hn, hd⟩, hmem⟩
    exact ⟨hwf, hnoise, hsilent, hbits, hlen, hlevel, hfour, hfive, hacc, h1, h2, ht, hn, hd, hmem⟩

/-! ### What keeps them, unit by unit -/

section
variable {l : LengthCounter} {enabled : Bool}

theorem Machine.LengthCounter.GatedBy.load (h : l.GatedBy enabled) (c : Cfg) (x : BitVec 5) :
    (l.load c enabled x).GatedBy enabled := by
  rintro rfl
  exact h rfl

theorem Machine.LengthCounter.GatedBy.clock (h : l.GatedBy enabled) : l.clock.GatedBy enabled := by
  intro hoff
  rw [LengthCounter.clock_of_zero (h hoff), h hoff]

/-- A status write establishes it, whatever held before. -/
theorem Machine.LengthCounter.gate_gatedBy (l : LengthCounter) (enable : Bool) :
    (l.gate enable).GatedBy enable := by
  rintro rfl
  rfl

end

section
variable {c : Cfg} (hwf : c.Wf)
include hwf

theorem Machine.FrameSequencer.write_withinSequence (f : FrameSequencer) (m q : Bool) :
    (f.write m q).WithinSequence c := by
  have hrise := hwf.offsets
  exact ⟨fun _ => show 0 < c.fsD by omega, fun _ => show 0 < c.fsE by omega⟩

/-- The count moves on by one below the end, and the count at the end restarts the sequence. -/
theorem Machine.Apu.fsClock_withinSequence {a : Apu} (h : a.frame.WithinSequence c) :
    (a.fsClock c).frame.WithinSequence c := by
  have hrise := hwf.offsets
  have hmode := a.fsClock_mode c
  constructor
  case fourStep =>
    intro hfour
    rw [hmode] at hfour
    have hcount := h.fourStep hfour
    rw [Apu.fsClock_frame_of_fourStep hwf a hfour]
    split
    case isTrue => exact show 0 < c.fsD by omega
    case isFalse hne => change (a.frame.cycleCounter + 1).toNat < c.fsD; bv_omega
  case fiveStep =>
    intro hfive
    rw [hmode] at hfive
    have hcount := h.fiveStep hfive
    rw [Apu.fsClock_frame_of_fiveStep hwf a hfive]
    split
    case isTrue => exact show 0 < c.fsE by omega
    case isFalse hne => change (a.frame.cycleCounter + 1).toNat < c.fsE; bv_omega

end

theorem Machine.FrameSequencer.WithinSequence.clearIrq {c : Cfg} {f : FrameSequencer} (h : f.WithinSequence c) :
    f.clearIrq.WithinSequence c := ⟨h.fourStep, h.fiveStep⟩

theorem Machine.Dmc.levelBound (d : Dmc) : d.outputLevel.toNat ≤ 127 := Nat.le_of_lt_succ d.outputLevel.isLt

section
variable {d : Dmc} (h : d.Consistent)
include h

theorem Machine.Dmc.Consistent.writeCtrl (q l : Bool) (r : BitVec 4) : (d.writeCtrl q l r).Consistent :=
  { h with }

theorem Machine.Dmc.Consistent.writeLoad (v : BitVec 7) : (d.writeLoad v).Consistent :=
  { h with levelBound := Dmc.levelBound _ }

theorem Machine.Dmc.Consistent.writeAddr (c : Cfg) (b : Byte) : (d.writeAddr c b).Consistent := { h with }

theorem Machine.Dmc.Consistent.writeLength {c : Cfg} (hwf : c.Wf) (b : Byte) : (d.writeLength c b).Consistent := by
  have hbias := hwf.sampleLength_ok.1
  have hlength := hwf.dmcSampleLength_toNat b
  exact { h with sampleLengthPos := show 1 ≤ (dmcSampleLength c b).toNat by omega }

theorem Machine.Dmc.Consistent.gate (enable : Bool) : (d.gate enable).Consistent := by
  rw [Dmc.gate_eq]
  exact { h with }

theorem Machine.Dmc.Consistent.clearIrq : d.clearIrq.Consistent := { h with }

theorem Machine.Dmc.Consistent.loopRestart (enabled : Bool) : (d.loopRestart enabled).Consistent := by
  obtain ⟨-, -, -, e⟩ | ⟨-, e⟩ := d.loopRestart_cases enabled <;> rw [e]
  · exact { h with }
  · exact h

theorem Machine.Dmc.Consistent.reloaded (c : Cfg) : (d.reloaded c).Consistent := { h with }

theorem Machine.Dmc.Consistent.starve (hbits : d.bitsRemaining = 0) : d.starve.Consistent :=
  { h with silentEmpty := fun _ => hbits }

theorem Machine.Dmc.Consistent.fetch (c : Cfg) (b : Byte) : (d.fetch c b).Consistent :=
  { h with silentEmpty := nofun, bitsBound := le_refl 8 }

/-- The output step takes a bit from a unit that has one. -/
theorem Machine.Dmc.Consistent.outputStep (hbits : d.bitsRemaining ≠ 0) : d.outputStep.Consistent := by
  cases hsilent : d.silenceFlag
  case true => rw [Dmc.outputStep_of_silent hsilent]; exact h
  case false =>
    rw [Dmc.outputStep_of_sounding hsilent]
    have hbound := h.bitsBound
    refine { h with silentEmpty := fun hset => ?_, bitsBound := ?_, levelBound := Dmc.levelBound _ }
    · exact absurd (hsilent.symm.trans hset) Bool.false_ne_true
    · change (d.bitsRemaining - 1).toNat ≤ 8
      bv_omega

end

theorem Machine.dmcTimerClock_consistent {s : State} (h : s.apu.dmc.Consistent) (c : Cfg) :
    (dmcTimerClock c s).apu.dmc.Consistent := by
  have hrestart : ((s.apu.dmc.loopRestart s.apu.chanEnable.dmc).reloaded c).Consistent :=
    (h.loopRestart s.apu.chanEnable.dmc).reloaded c
  rcases dmcTimerClock_cases c s with ⟨-, e, -⟩ | ⟨-, hbits, e, -⟩ | ⟨-, hbits, -, e, -⟩ | ⟨-, -, -, ⟨b, e⟩, -⟩ <;>
    rw [e]
  · exact { h with }
  · exact (h.reloaded c).outputStep hbits
  · exact hrestart.starve ((Dmc.loopRestart_bitsRemaining _ _).trans hbits)
  · exact (hrestart.fetch c b).outputStep (show (8 : BitVec 4) ≠ 0 by decide)

/-- A disabled DMC has nothing to fetch and does not start a sample again. -/
theorem Machine.dmcTimerClock_bytesRemaining_of_disabled {s : State} (c : Cfg) (hoff : s.apu.chanEnable.dmc = false)
    (h : s.apu.dmc.bytesRemaining = 0) : (dmcTimerClock c s).apu.dmc.bytesRemaining = 0 := by
  have hidle : s.apu.dmc.loopRestart s.apu.chanEnable.dmc = s.apu.dmc :=
    if_neg (by simp [hoff])
  rcases dmcTimerClock_cases c s with ⟨-, e, -⟩ | ⟨-, -, e, -⟩ | ⟨-, -, -, e, -⟩ | ⟨-, -, hbytes, -⟩
  · rw [e]; exact h
  · rw [e, Dmc.outputStep_bytesRemaining]; exact h
  · rw [e, hidle]; exact h
  · rw [hidle] at hbytes; exact absurd h hbytes

/-! ### What keeps them, event by event -/

section
variable {c : Cfg} (hwf : c.Wf)
include hwf

theorem reset_consistent : (Apu.reset c).Consistent c := by
  have hrise := hwf.offsets
  obtain ⟨hbias, hlength⟩ := hwf.sampleLength_ok
  have hpos : 1 ≤ (BitVec.ofNat 12 c.dmcLenBias).toNat := by
    rw [BitVec.toNat_ofNat, Nat.mod_eq_of_lt (by omega)]; exact hbias
  exact {
    noiseNonzero := show (1 : BitVec 15) ≠ 0 by decide
    dmc := ⟨fun _ => rfl, Nat.zero_le 8, hpos, Nat.zero_le 127⟩
    frame := ⟨fun _ => show 0 < c.fsD by omega, fun _ => show 0 < c.fsE by omega⟩
    accBound := hwf.sampleRate_pos.trans_le hwf.sampleRate_le
    gatedP1 := fun _ => rfl
    gatedP2 := fun _ => rfl
    gatedTri := fun _ => rfl
    gatedNoise := fun _ => rfl
    gatedDmc := fun _ => rfl }

theorem clock_consistent {s : State} (h : s.apu.Consistent c) : (clock c s).apu.Consistent c where
  noiseNonzero := by
    rw [clock_noise]
    split
    case isTrue =>
      by_cases htick : (s.apu.fsClock c).noise.timerCounter = 0
      case pos => rw [Noise.timerTick_of_zero c htick, Apu.fsClock_noise_shiftRegister]; exact lfsrStep_ne_zero _ h.noiseNonzero
      case neg => rw [Noise.timerTick_of_ne c htick, Apu.fsClock_noise_shiftRegister]; exact h.noiseNonzero
    case isFalse => rw [Apu.fsClock_noise_shiftRegister]; exact h.noiseNonzero
  dmc := by rw [clock_dmc]; exact dmcTimerClock_consistent h.dmc c
  frame := by rw [clock_frame]; exact Apu.fsClock_withinSequence hwf h.frame
  accBound := by rw [clock_sampleAcc]; exact (sampleStep_toNat hwf _ h.accBound).2
  gatedP1 := by
    rw [clock_chanEnable]
    obtain ⟨e, -⟩ | ⟨e, -⟩ := clock_length_cases c s <;> rw [e]
    exacts [h.gatedP1, h.gatedP1.clock]
  gatedP2 := by
    rw [clock_chanEnable]
    obtain ⟨-, e, -⟩ | ⟨-, e, -⟩ := clock_length_cases c s <;> rw [e]
    exacts [h.gatedP2, h.gatedP2.clock]
  gatedTri := by
    rw [clock_chanEnable]
    obtain ⟨-, -, e, -⟩ | ⟨-, -, e, -⟩ := clock_length_cases c s <;> rw [e]
    exacts [h.gatedTri, h.gatedTri.clock]
  gatedNoise := by
    rw [clock_chanEnable]
    obtain ⟨-, -, -, e⟩ | ⟨-, -, -, e⟩ := clock_length_cases c s <;> rw [e]
    exacts [h.gatedNoise, h.gatedNoise.clock]
  gatedDmc := by
    rw [clock_chanEnable, clock_dmc]
    exact fun hoff => dmcTimerClock_bytesRemaining_of_disabled c hoff (h.gatedDmc hoff)

end

theorem Machine.Apu.Consistent.writeFrame {c : Cfg} (hwf : c.Wf) {a : Apu} (h : a.Consistent c) (m q : Bool) :
    (a.writeFrame m q).Consistent c := by
  have hframe := FrameSequencer.write_withinSequence hwf a.frame m q
  cases m
  case false => exact { h with frame := hframe }
  case true =>
    exact { h with
      frame := hframe
      gatedP1 := h.gatedP1.clock
      gatedP2 := h.gatedP2.clock
      gatedTri := h.gatedTri.clock
      gatedNoise := h.gatedNoise.clock }

theorem Machine.Apu.Consistent.writeStatus {c : Cfg} {a : Apu} (h : a.Consistent c) (b1 b2 bt bn bd : Bool) :
    (a.writeStatus b1 b2 bt bn bd).Consistent c :=
  { h with
    dmc := (h.dmc.gate bd).clearIrq
    gatedP1 := LengthCounter.gate_gatedBy _ b1
    gatedP2 := LengthCounter.gate_gatedBy _ b2
    gatedTri := LengthCounter.gate_gatedBy _ bt
    gatedNoise := LengthCounter.gate_gatedBy _ bn
    gatedDmc := by rintro rfl; rfl }

/-- Every event keeps the block consistent; most write no field the invariants speak of. -/
theorem exec_consistent {i : Instr} {s t : State} (hwf : s.cfg.Wf) (h : s.apu.Consistent s.cfg)
    (hexec : exec i s = .next t) : t.apu.Consistent s.cfg := by
  cases i <;> obtain rfl := Host.Outcome.next.inj hexec
  case clk => exact clock_consistent hwf h
  case reset => exact reset_consistent hwf
  case wrP1Hi x _ => exact { h with gatedP1 := h.gatedP1.load s.cfg x }
  case wrP2Hi x _ => exact { h with gatedP2 := h.gatedP2.load s.cfg x }
  case wrTriHi x _ => exact { h with gatedTri := h.gatedTri.load s.cfg x }
  case wrNoiLen x => exact { h with gatedNoise := h.gatedNoise.load s.cfg x }
  case wrDmcCtrl q l r => exact { h with dmc := h.dmc.writeCtrl q l r }
  case wrDmcLoad v => exact { h with dmc := h.dmc.writeLoad v }
  case wrDmcAddr b => exact { h with dmc := h.dmc.writeAddr s.cfg b }
  case wrDmcLen b => exact { h with dmc := h.dmc.writeLength hwf b }
  case wrStatus b1 b2 bt bn bd => exact h.writeStatus b1 b2 bt bn bd
  case wrFrame m q => exact h.writeFrame hwf m q
  case rdStatus => exact { h with frame := h.frame.clearIrq }
  all_goals exact { h with }

/-! ### The obligations -/

theorem exec_mem {i : Instr} {s t : State} (h : exec i s = .next t) : t.mem = s.mem := by
  obtain ⟨rfl, rfl⟩ | ⟨-, a, b, rfl⟩ := exec_cases h
  · exact clock_mem _ _
  · rfl

theorem exec_inv {i : Instr} {s t : State} (h : Inv s) (hexec : exec i s = .next t) : Inv t := by
  rw [inv_iff] at h ⊢
  obtain ⟨hwf, hblock, hmem⟩ := h
  rw [exec_cfg hexec, exec_mem hexec]
  exact ⟨hwf, exec_consistent hwf hblock hexec, hmem⟩

theorem resetWith_inv {c : Cfg} (hwf : c.Wf) : Inv (State.resetWith c) :=
  (inv_iff _).2 ⟨hwf, reset_consistent hwf, rfl⟩

/-- Taking an event off the queue is no matter of the invariants. -/
theorem inv_withEvents {s : State} (h : Inv s) (es : List EventWord) : Inv { s with events := es } :=
  (inv_iff _).2 ((inv_iff s).1 h)

/-- Settles O58. -/
theorem stepKeepsInvariants : Obligations.StepKeepsInvariants := by
  unfold Obligations.StepKeepsInvariants
  intro s t h hstep
  obtain ⟨-, rfl⟩ | ⟨e, rest, -, hexec⟩ := step_cases hstep
  · exact h
  · exact exec_inv (inv_withEvents h rest) hexec

/-- Settles O60. -/
theorem everyConfigKeepsInvariants : Obligations.EveryConfigKeepsInvariants := by
  unfold Obligations.EveryConfigKeepsInvariants
  intro c hwf
  refine ⟨⟨resetWith_inv hwf, rfl⟩, fun i s t hcfg h hexec => ⟨exec_inv h hexec, ?_⟩⟩
  rw [exec_cfg hexec, hcfg]

end Sys2Proof
end

section
/-! PROOFS. The ranges of R13, R15 and R49: stated of the two units that have them, kept by each event, and so by
each step; what a step presents to the sample memory lies in the bank. -/

namespace Sys2Proof

open Sys2Proof.Machine

/-! ### The ranges as facts about the units -/

/-- A byte left to play lies in the bank, where the bank wraps into itself (R49, log 11). -/
def Machine.Dmc.PlaysInBank (c : Cfg) (d : Dmc) : Prop :=
  c.WrapsInBank → d.bytesRemaining ≠ 0 → c.dmcWrapTo.toNat ≤ d.currentAddress.toNat

/-- The ranges of R15. -/
structure Machine.Dmc.InRange (c : Cfg) (d : Dmc) : Prop where
  timer : ∃ i : Fin 16, d.timerCounter.toNat ≤ c.dmcRate.get i - 1
  sampleAddress : ∃ k : Byte, d.sampleAddress.toNat = c.dmcAddrBase.toNat + c.dmcAddrStep * k.toNat
  sampleLength : ∃ k : Byte, d.sampleLength.toNat = c.dmcLenStep * k.toNat + c.dmcLenBias
  bytesRemaining : d.bytesRemaining.toNat ≤ 255 * c.dmcLenStep + c.dmcLenBias
  fetchInBank : d.PlaysInBank c

/-- The range of R13. -/
def Machine.Noise.InRange (c : Cfg) (n : Noise) : Prop :=
  ∃ i : Fin 16, n.timerCounter.toNat ≤ c.noisePeriod.get i / 2 - 1

theorem ranges_iff (s : State) : Ranges s ↔ s.apu.noise.InRange s.cfg ∧ s.apu.dmc.InRange s.cfg := by
  constructor
  · rintro ⟨hnoise, htimer, haddr, hlen, hbytes, hbank⟩
    exact ⟨hnoise, htimer, haddr, hlen, hbytes, hbank⟩
  · rintro ⟨hnoise, htimer, haddr, hlen, hbytes, hbank⟩
    exact ⟨hnoise, htimer, haddr, hlen, hbytes, hbank⟩

/-! ### What keeps them -/

/-- A counter that is not at zero counts down, and stays in range. -/
theorem toNat_sub_one_le {w m : Nat} {k : BitVec w} (hk : k.toNat ≤ m) (hne : k ≠ 0#w) : (k - 1#w).toNat ≤ m := by
  have hcount := timerClock_toNat k 0#w
  rw [timerClock_ne hne, if_neg hne] at hcount
  exact hcount.trans_le ((Nat.sub_le _ _).trans hk)

theorem Machine.Noise.InRange.timerTick {c : Cfg} {n : Noise} (h : n.InRange c) : (n.timerTick c).InRange c := by
  by_cases htick : n.timerCounter = 0
  case pos =>
    rw [Noise.timerTick_of_zero c htick]
    exact ⟨n.periodIndex.toFin, Nat.mod_le _ _⟩
  case neg =>
    rw [Noise.timerTick_of_ne c htick]
    obtain ⟨i, hi⟩ := h
    exact ⟨i, toNat_sub_one_le hi htick⟩

section
variable {c : Cfg} {d : Dmc} (h : d.InRange c)
include h

theorem Machine.Dmc.InRange.writeAddr (hwf : c.Wf) (b : Byte) : (d.writeAddr c b).InRange c :=
  { h with sampleAddress := ⟨b, hwf.dmcSampleAddress_toNat b⟩ }

theorem Machine.Dmc.InRange.writeLength (hwf : c.Wf) (b : Byte) : (d.writeLength c b).InRange c :=
  { h with sampleLength := ⟨b, hwf.dmcSampleLength_toNat b⟩ }

/-- A sample starts in the bank, and no sample is longer than the longest. -/
theorem Machine.Dmc.InRange.restart : d.restart.InRange c := by
  obtain ⟨k, haddr⟩ := h.sampleAddress
  obtain ⟨j, hlen⟩ := h.sampleLength
  have hstep := mul_byte_le c.dmcLenStep j
  refine { h with bytesRemaining := ?_, fetchInBank := fun hbank _ => ?_ }
  · change d.sampleLength.toNat ≤ 255 * c.dmcLenStep + c.dmcLenBias
    omega
  · obtain ⟨-, hbase⟩ := hbank
    change c.dmcWrapTo.toNat ≤ d.sampleAddress.toNat
    omega

theorem Machine.Dmc.InRange.gate (enable : Bool) : (d.gate enable).InRange c := by
  cases enable
  case false => exact { h with bytesRemaining := Nat.zero_le _, fetchInBank := fun _ hne => absurd rfl hne }
  case true =>
    rw [Dmc.gate, if_pos rfl]
    split
    case isTrue => exact h.restart
    case isFalse => exact h

theorem Machine.Dmc.InRange.loopRestart (enabled : Bool) : (d.loopRestart enabled).InRange c := by
  obtain ⟨-, -, -, e⟩ | ⟨-, e⟩ := d.loopRestart_cases enabled <;> rw [e]
  exacts [h.restart, h]

theorem Machine.Dmc.InRange.reloaded : (d.reloaded c).InRange c :=
  { h with timer := ⟨d.rateIndex.toFin, Nat.mod_le _ _⟩ }

theorem Machine.Dmc.InRange.outputStep : d.outputStep.InRange c := by
  obtain ⟨v, r, n, e⟩ := d.outputStep_frame
  rw [e]
  exact { h with }

/-- The successor of an address of the bank is in the bank: the last address has the wrap's. -/
theorem Machine.Dmc.InRange.fetch (hbytes : d.bytesRemaining ≠ 0) (b : Byte) : (d.fetch c b).InRange c := by
  have hbound := h.bytesRemaining
  refine { h with bytesRemaining := ?_, fetchInBank := fun hbank _ => ?_ }
  · exact toNat_sub_one_le hbound hbytes
  · have hin := h.fetchInBank hbank hbytes
    obtain ⟨hlast, -⟩ := hbank
    change c.dmcWrapTo.toNat ≤ (nextAddr c d.currentAddress).toNat
    rw [nextAddr, hlast]
    split
    case isTrue => exact le_rfl
    case isFalse hne => bv_omega

end

theorem Machine.dmcTimerClock_inRange {c : Cfg} {s : State} (h : s.apu.dmc.InRange c) :
    (dmcTimerClock c s).apu.dmc.InRange c := by
  have hrestart := h.loopRestart s.apu.chanEnable.dmc
  rcases dmcTimerClock_cases c s with ⟨hne, e, -⟩ | ⟨-, -, e, -⟩ | ⟨-, -, -, e, -⟩ | ⟨-, -, hbytes, ⟨b, e⟩, -⟩ <;>
    rw [e]
  · obtain ⟨i, hi⟩ := h.timer
    exact { h with timer := ⟨i, toNat_sub_one_le hi hne⟩ }
  · exact h.reloaded.outputStep
  · exact { hrestart.reloaded with }
  · exact (hrestart.reloaded.fetch hbytes b).outputStep

theorem clock_noise_inRange {c : Cfg} {s : State} (h : s.apu.noise.InRange c) : (clock c s).apu.noise.InRange c := by
  have hticks : (s.apu.fsClock c).noise.InRange c := by
    rw [Noise.InRange, Apu.fsClock_noise_timerCounter]; exact h
  rw [clock_noise]
  split
  case isTrue => exact hticks.timerTick
  case isFalse => exact hticks

theorem reset_dmc_inRange {c : Cfg} (hwf : c.Wf) : (Dmc.reset c).InRange c where
  timer := ⟨0, Nat.zero_le _⟩
  sampleAddress := ⟨0, rfl⟩
  sampleLength := by
    obtain ⟨-, hlast⟩ := hwf.sampleLength_ok
    refine ⟨0, ?_⟩
    change (BitVec.ofNat 12 c.dmcLenBias).toNat = c.dmcLenStep * 0 + c.dmcLenBias
    rw [BitVec.toNat_ofNat, Nat.mod_eq_of_lt (by omega)]
    omega
  bytesRemaining := Nat.zero_le _
  fetchInBank := fun _ hne => absurd rfl hne

theorem resetWith_ranges {c : Cfg} (hwf : c.Wf) : Ranges (State.resetWith c) :=
  (ranges_iff _).2 ⟨⟨0, Nat.zero_le _⟩, reset_dmc_inRange hwf⟩

/-- Every event keeps the ranges; of the events other than `CLK`, those that write the DMC have something to
show. -/
theorem exec_ranges {i : Instr} {s t : State} (hwf : s.cfg.Wf) (h : Ranges s) (hexec : exec i s = .next t) :
    Ranges t := by
  obtain ⟨hnoise, hdmc⟩ := (ranges_iff s).1 h
  rw [ranges_iff, exec_cfg hexec]
  cases i <;> obtain rfl := Host.Outcome.next.inj hexec
  case clk => exact ⟨clock_noise_inRange hnoise, by rw [clock_dmc]; exact dmcTimerClock_inRange hdmc⟩
  case reset => exact ⟨⟨0, Nat.zero_le _⟩, reset_dmc_inRange hwf⟩
  case wrDmcAddr b => exact ⟨hnoise, hdmc.writeAddr hwf b⟩
  case wrDmcLen b => exact ⟨hnoise, hdmc.writeLength hwf b⟩
  case wrStatus b1 b2 bt bn bd => exact ⟨hnoise, { hdmc.gate bd with }⟩
  case wrFrame m q =>
    rw [State.update_apu, Apu.writeFrame_dmc]
    exact ⟨by cases m <;> exact hnoise, hdmc⟩
  all_goals exact ⟨hnoise, { hdmc with }⟩

/-! ### The address presented -/

/-- Only a clock presents an address: that of a byte the DMC, its loop clause done, has left to play. -/
theorem exec_memAddr {i : Instr} {s t : State} (h : exec i s = .next t) :
    (t.memReads = s.memReads ∧ t.out.memAddr = none)
    ∨ (i = .clk ∧ t.memReads = s.memReads + 1
      ∧ (s.apu.dmc.loopRestart s.apu.chanEnable.dmc).bytesRemaining ≠ 0
      ∧ t.out.memAddr = some (s.apu.dmc.loopRestart s.apu.chanEnable.dmc).currentAddress) := by
  obtain ⟨rfl, rfl⟩ | ⟨-, a, b, rfl⟩ := exec_cases h
  case inr => exact .inl ⟨rfl, rfl⟩
  case inl =>
    rw [clock_memReads, clock_memAddr, dmcTimerClock_memAddr]
    rcases dmcTimerClock_cases s.cfg s with ⟨-, -, e⟩ | ⟨-, -, -, e⟩ | ⟨-, -, -, -, e⟩ | ⟨-, -, hbytes, -, e⟩
    · exact .inl ⟨e, if_pos e⟩
    · exact .inl ⟨e, if_pos e⟩
    · exact .inl ⟨e, if_pos e⟩
    · have hread : (dmcTimerClock s.cfg s).memReads ≠ s.memReads := by omega
      exact .inr ⟨rfl, e, hbytes, by rw [if_neg hread, if_neg hread, Dmc.loopRestart_currentAddress]⟩

/-- Settles O59. -/
theorem stepKeepsRanges : Obligations.StepKeepsRanges := by
  unfold Obligations.StepKeepsRanges
  intro s t hinv hranges hstep
  obtain ⟨hevents, rfl⟩ | ⟨e, rest, -, hexec⟩ := step_cases hstep
  · exact ⟨hranges, fun hne => absurd hevents hne⟩
  · have hranges' : Ranges { s with events := rest } := (ranges_iff _).2 ((ranges_iff s).1 hranges)
    refine ⟨exec_ranges (s := { s with events := rest }) hinv.cfgWf hranges' hexec, fun _ a ha => ?_⟩
    obtain ⟨-, hnone⟩ | ⟨-, -, hbytes, haddr⟩ := exec_memAddr hexec
    · rw [hnone] at ha; cases ha
    · obtain rfl : _ = a := Option.some.inj (haddr.symm.trans ha)
      have hrestart := ((ranges_iff s).1 hranges).2.loopRestart s.apu.chanEnable.dmc
      have hin (hbank : s.cfg.WrapsInBank) := hrestart.fetchInBank hbank hbytes
      refine ⟨hin, fun hntsc => ?_⟩
      rw [hntsc] at hin
      exact hin (by decide)

/-- Settles O57. -/
theorem resetMeetsInvariants : Obligations.ResetMeetsInvariants := by
  unfold Obligations.ResetMeetsInvariants
  exact ⟨fun c hwf => ⟨resetWith_inv hwf, resetWith_ranges hwf⟩, Config.ntsc_wf, by decide, rfl⟩

end Sys2Proof
end

section
/-! PROOFS. The reset event and its values (R40, R142), and the first clock after it. -/

namespace Sys2Proof

open Sys2Proof.Machine

@[simp] theorem Machine.exec_reset (s : State) : exec .reset s = .next (s.update (Apu.reset s.cfg)) := rfl

/-- Two events one after the other. -/
theorem Machine.execList_pair {i j : Instr} {s t : State} (h : exec i s = .next t) :
    execList [i, j] s = exec j t := by
  rw [execList, h]
  change execList [j] t = exec j t
  rw [execList]
  cases exec j t <;> rfl

/-- After reset nothing is active and no interrupt pends, so every status bit is clear. -/
theorem Machine.Apu.reset_statusByte (c : Cfg) : (Apu.reset c).statusByte = 0 := by
  apply BitVec.eq_of_getLsbD_eq
  intro i hi
  rw [Apu.statusByte_getLsbD]
  interval_cases i <;> rfl

/-- Settles O23. Every value is read off the reset block. -/
theorem resetEvent : Obligations.ResetEvent := by
  unfold Obligations.ResetEvent
  refine ⟨decodeEvent_kind_three, fun s => ⟨Apu.reset s.cfg, exec_reset s, rfl, rfl, rfl, rfl, rfl, rfl, rfl, rfl, rfl,
    rfl, rfl, rfl, rfl, rfl, rfl, rfl, rfl, fun hntsc => ?ntsc, rfl, rfl, rfl, rfl, rfl, rfl, rfl, rfl, _,
    (execList_pair (exec_reset s)).trans (exec_rdStatus _), ?status⟩⟩
  case ntsc => rw [hntsc]; exact ⟨rfl, rfl⟩
  case status => rw [State.answer_out, State.update_apu, Apu.reset_statusByte]

/-- Settles O24. -/
theorem resetValues : Obligations.ResetValues := by
  unfold Obligations.ResetValues
  decide

/-- Settles O26. -/
theorem firstClockAfterReset : Obligations.FirstClockAfterReset := by
  unfold Obligations.FirstClockAfterReset
  refine ⟨_, exec_clk _, ?_⟩
  decide

end Sys2Proof
end

section
/-! PROOFS. The sample memory: what it answers, who reads it, and the refill step that does (R8, R42, R49, R111). -/

namespace Sys2Proof

open Sys2Proof.Machine

/-! ### Read after write -/

theorem Machine.State.memByte_of_lookup {s : State} {a : Addr} {v : Byte} (h : Memory.lookup s.mem a.toNat = some v) :
    s.memByte a = v := by
  rw [State.memByte, h]

/-- What an address answers depends on its cell and on the number of reads made. -/
theorem Machine.State.memByte_congr {s t : State} {a : Addr}
    (hcell : Memory.lookup t.mem a.toNat = Memory.lookup s.mem a.toNat) (hreads : t.memReads = s.memReads) :
    t.memByte a = s.memByte a := by
  rw [State.memByte, State.memByte, hcell, hreads]

/-- Settles O34. -/
theorem sampleMemoryAnswers : Obligations.SampleMemoryAnswers := by
  unfold Obligations.SampleMemoryAnswers
  intro s a b v
  refine ⟨State.memByte_of_lookup (Memory.lookup_put_same _ _ _), fun hne => State.memByte_congr ?_ rfl,
    fun hmem => Memory.wf_put hmem a.isLt v⟩
  exact Memory.lookup_put_other _ (fun h => hne (BitVec.eq_of_toNat_eq h)) v

/-! ### Who reads it -/

theorem exec_events {i : Instr} {s t : State} (h : exec i s = .next t) : t.events = s.events := by
  obtain ⟨rfl, rfl⟩ | ⟨-, a, b, rfl⟩ := exec_cases h
  · exact clock_events _ _
  · rfl

/-- Settles O11. If something is fetched when nothing of the sample remains, the loop clause has started it
again. -/
theorem eventsKeepSampleMemory : Obligations.EventsKeepSampleMemory := by
  unfold Obligations.EventsKeepSampleMemory
  intro i s t hexec
  have hmem := exec_mem hexec
  refine ⟨fun a => by rw [hmem], hmem, exec_events hexec, exec_cfg hexec, ?_⟩
  obtain hnone | ⟨hclk, hreads, hbytes, haddr⟩ := exec_memAddr hexec
  · exact .inl hnone
  · refine .inr ⟨hclk, hreads, haddr.trans (congrArg some ?_)⟩
    obtain ⟨hzero, -, -, e⟩ | ⟨-, e⟩ := s.apu.dmc.loopRestart_cases s.apu.chanEnable.dmc <;> rw [e] at hbytes ⊢
    · rw [if_pos hzero]; rfl
    · rw [if_neg hbytes]

/-! ### The refill step -/

/-- The interrupt clause of silence, as the rule words it. -/
theorem Machine.Dmc.starve_eq (d : Dmc) :
    d.starve = { d with
      silenceFlag := true
      irqFlag := if d.loopFlag = false ∧ d.irqEnable = true then true else d.irqFlag } := by
  have hflag : (d.irqFlag || (!d.loopFlag && d.irqEnable))
      = if d.loopFlag = false ∧ d.irqEnable = true then true else d.irqFlag := by
    cases d.irqFlag <;> cases d.loopFlag <;> cases d.irqEnable <;> rfl
  rw [Dmc.starve, hflag]

/-- A looping sample of length 0 that starts again falls silent at its start, and raises no interrupt (log 8). -/
theorem Machine.Dmc.starve_restart_of_empty {d : Dmc} (hloop : d.loopFlag = true) (hbytes : d.bytesRemaining = 0)
    (hlen : d.sampleLength = 0) :
    d.restart.starve = { d with currentAddress := d.sampleAddress, silenceFlag := true } := by
  have hflag : (d.irqFlag || (!d.loopFlag && d.irqEnable)) = d.irqFlag := by
    rw [hloop, Bool.not_true, Bool.false_and, Bool.or_false]
  rw [Dmc.restart, Dmc.starve, hlen, hflag, hbytes]

section
variable {c : Cfg} {s : State}

theorem Machine.dmcRefill_of_bits (h : s.apu.dmc.bitsRemaining ≠ 0) : dmcRefill c s = s := if_neg h

theorem Machine.dmcRefill_of_silence (hbits : s.apu.dmc.bitsRemaining = 0)
    (hbytes : (s.apu.dmc.loopRestart s.apu.chanEnable.dmc).bytesRemaining = 0) :
    dmcRefill c s = s.withDmc (s.apu.dmc.loopRestart s.apu.chanEnable.dmc).starve := by
  rw [dmcRefill, if_pos hbits]; exact if_pos hbytes

theorem Machine.dmcRefill_of_fetch (hbits : s.apu.dmc.bitsRemaining = 0)
    (hbytes : (s.apu.dmc.loopRestart s.apu.chanEnable.dmc).bytesRemaining ≠ 0) :
    dmcRefill c s = (s.withDmc ((s.apu.dmc.loopRestart s.apu.chanEnable.dmc).fetch c
      (s.memByte (s.apu.dmc.loopRestart s.apu.chanEnable.dmc).currentAddress))).presentAddr
      (s.apu.dmc.loopRestart s.apu.chanEnable.dmc).currentAddress := by
  rw [dmcRefill, if_pos hbits]; exact if_neg hbytes

end

/-- Settles O33. The loop clause decides which DMC the other two clauses see. -/
theorem dmcRefillStep : Obligations.DmcRefillStep := by
  unfold Obligations.DmcRefillStep
  intro c s d loops fetched
  have hrestart (hbytes : d.bytesRemaining = 0) (hloops : loops) : d.loopRestart s.apu.chanEnable.dmc = d.restart :=
    if_pos ⟨hbytes, hloops⟩
  have hplaying (h : d.bytesRemaining ≠ 0 ∨ ¬ loops) : d.loopRestart s.apu.chanEnable.dmc = d :=
    if_neg fun hcond => h.elim (fun hne => hne hcond.1) (fun hno => hno hcond.2)
  refine ⟨dmcRefill_of_bits, fun hbits hbytes => ?fetch, fun hbits hbytes hloops hlen => ?loop,
    fun hbits hbytes hloops hlen => ?empty, fun hbits hbytes hloops => ?silence⟩
  case fetch =>
    have e := hplaying (.inl hbytes)
    rw [dmcRefill_of_fetch hbits (by rwa [e]), e]; rfl
  case loop =>
    have e := hrestart hbytes hloops
    rw [dmcRefill_of_fetch hbits (by rwa [e]), e]; rfl
  case empty =>
    have e := hrestart hbytes hloops
    rw [dmcRefill_of_silence hbits (by rwa [e]), e, Dmc.starve_restart_of_empty hloops.1 hbytes hlen]; rfl
  case silence =>
    have e := hplaying (.inr hloops)
    rw [dmcRefill_of_silence hbits (by rwa [e]), e, Dmc.starve_eq]; rfl

end Sys2Proof
end

section
/-! PROOFS. The half-rate timers (R75, R76, R90, R96, R102), the shift register's step (R103), and the lengths of
the two noise sequences (conflict C1). -/

namespace Sys2Proof

open Sys2Proof.Machine

/-! ### One timer clock of each channel -/

theorem Machine.Pulse.timerTick_of_zero {p : Pulse} (h : p.timerCounter = 0) :
    p.timerTick = { p with timerCounter := p.timerPeriod, dutyIndex := p.dutyIndex - 1 } := by
  rw [Pulse.timerTick, timerClock_zero h]; rfl

theorem Machine.Pulse.timerTick_of_ne {p : Pulse} (h : p.timerCounter ≠ 0) :
    p.timerTick = { p with timerCounter := p.timerCounter - 1 } := by
  rw [Pulse.timerTick, timerClock_ne h]; rfl

theorem Machine.Triangle.timerTick_of_zero {t : Triangle} (h : t.timerCounter = 0) :
    t.timerTick = { t with
      timerCounter := t.timerPeriod
      sequenceIndex := if t.length.value ≠ 0 ∧ t.linearCounter ≠ 0 then t.sequenceIndex + 1
        else t.sequenceIndex } := by
  rw [Triangle.timerTick, timerClock_zero h]; simp only [true_and]

theorem Machine.Triangle.timerTick_of_ne {t : Triangle} (h : t.timerCounter ≠ 0) :
    t.timerTick = { t with timerCounter := t.timerCounter - 1 } := by
  rw [Triangle.timerTick, timerClock_ne h]; simp

/-- The reload value is half the table's period less one, exactly. -/
theorem Cfg.Wf.noiseReload_toNat {c : Cfg} (hwf : c.Wf) (p : BitVec 4) :
    2 * ((noiseReload c p).toNat + 1) = c.noisePeriod.get p.toFin := by
  obtain ⟨heven, hpos, hfits⟩ := hwf.noisePeriod_ok p.toFin
  rw [noiseReload, BitVec.toNat_ofNat, Nat.mod_eq_of_lt (by omega)]
  omega

/-- Settles O31. -/
theorem halfRateTimerClocks : Obligations.HalfRateTimerClocks := by
  unfold Obligations.HalfRateTimerClocks
  intro c p t n hwf
  refine ⟨Pulse.timerTick_of_zero, Pulse.timerTick_of_ne, Triangle.timerTick_of_zero, Triangle.timerTick_of_ne,
    Noise.timerTick_of_ne c, fun hzero => ⟨_, _, Noise.timerTick_of_zero c hzero, hwf.noiseReload_toNat _, ?top,
    fun j hj => ?shifted⟩⟩
  case top => rw [lfsrStep_getLsbD]; rfl
  case shifted => rw [lfsrStep_getLsbD, if_pos hj]

/-! ### Odd clocks -/

section
variable (c : Cfg) (a : Apu)

/-- The frame ticks leave the half-rate counters and what they drive. -/
@[simp] theorem Machine.Apu.fsClock_p1_timerCounter : (a.fsClock c).p1.timerCounter = a.p1.timerCounter := by
  rcases a.fsClock_cases c with h | h | h | ⟨_, _, h⟩ | ⟨_, _, h⟩ <;> simp [h]
@[simp] theorem Machine.Apu.fsClock_p1_dutyIndex : (a.fsClock c).p1.dutyIndex = a.p1.dutyIndex := by
  rcases a.fsClock_cases c with h | h | h | ⟨_, _, h⟩ | ⟨_, _, h⟩ <;> simp [h]
@[simp] theorem Machine.Apu.fsClock_p2_timerCounter : (a.fsClock c).p2.timerCounter = a.p2.timerCounter := by
  rcases a.fsClock_cases c with h | h | h | ⟨_, _, h⟩ | ⟨_, _, h⟩ <;> simp [h]
@[simp] theorem Machine.Apu.fsClock_p2_dutyIndex : (a.fsClock c).p2.dutyIndex = a.p2.dutyIndex := by
  rcases a.fsClock_cases c with h | h | h | ⟨_, _, h⟩ | ⟨_, _, h⟩ <;> simp [h]
@[simp] theorem Machine.Apu.fsClock_tri_timerCounter : (a.fsClock c).tri.timerCounter = a.tri.timerCounter := by
  rcases a.fsClock_cases c with h | h | h | ⟨_, _, h⟩ | ⟨_, _, h⟩ <;> simp [h, Triangle.linearClock]
@[simp] theorem Machine.Apu.fsClock_tri_sequenceIndex : (a.fsClock c).tri.sequenceIndex = a.tri.sequenceIndex := by
  rcases a.fsClock_cases c with h | h | h | ⟨_, _, h⟩ | ⟨_, _, h⟩ <;> simp [h, Triangle.linearClock]

end

/-- Settles O42. On an odd clock only the frame sequencer acts on these channels. -/
theorem oddClocksHoldHalfRateTimers : Obligations.OddClocksHoldHalfRateTimers := by
  unfold Obligations.OddClocksHoldHalfRateTimers
  intro s t hexec hodd
  obtain rfl := Host.Outcome.next.inj hexec
  have heven : ¬ s.apu.phase = false := by rw [hodd]; exact Bool.true_eq_false.mp
  rw [clock_p1, clock_p2, clock_tri, clock_noise, if_neg heven, if_neg heven, if_neg heven, if_neg heven]
  exact ⟨Apu.fsClock_p1_timerCounter _ _, Apu.fsClock_p1_dutyIndex _ _, Apu.fsClock_p2_timerCounter _ _,
    Apu.fsClock_p2_dutyIndex _ _, Apu.fsClock_tri_timerCounter _ _, Apu.fsClock_tri_sequenceIndex _ _,
    Apu.fsClock_noise_timerCounter _ _, Apu.fsClock_noise_shiftRegister _ _⟩

/-! ### The noise sequences

A point returns first after `n` steps if it returns after `n` and not after `n / p` for a prime factor `p` of
`n`. So few runs have to be looked at; they are run on numbers, each step's number found before the next
step. -/

theorem times_eq_iterate {α : Type} (f : α → α) (n : Nat) (x : α) : times f n x = f^[n] x := by
  induction n generalizing x with
  | zero => rfl
  | succ n ih => exact ih (f x)

/-- If the least period were a proper part of `n`, it would divide one of the `n / p`. -/
theorem minimalPeriod_eq_of_prime_factors {α : Type} {f : α → α} {x : α} {n : Nat} (hn : f^[n] x = x)
    (hprime : ∀ p, p.Prime → p ∣ n → f^[n / p] x ≠ x) : Function.minimalPeriod f x = n := by
  obtain ⟨k, hk⟩ := Function.IsPeriodicPt.minimalPeriod_dvd hn
  by_contra hne
  have hproper : k ≠ 1 := by rintro rfl; omega
  obtain ⟨p, hp, m, rfl⟩ := Nat.exists_prime_and_dvd hproper
  have hfactor : n = p * (Function.minimalPeriod f x * m) := by rw [hk]; ring
  refine hprime p hp ⟨_, hfactor⟩ ?_
  rw [Nat.div_eq_of_eq_mul_right hp.pos hfactor]
  exact (Function.isPeriodicPt_minimalPeriod f x).mul_const m

/-- What a least period says of a run from the point it belongs to. -/
theorem times_of_minimalPeriod_eq {α : Type} {f : α → α} {x : α} {n : Nat} (h : Function.minimalPeriod f x = n) :
    times f n x = x ∧ ∀ m : Nat, 0 < m → m < n → times f m x ≠ x := by
  subst h
  simp only [times_eq_iterate]
  exact ⟨Function.iterate_minimalPeriod, fun m hpos hlt =>
    Function.not_isPeriodicPt_of_pos_of_lt_minimalPeriod hpos.ne' hlt⟩

/-- What the number of a register is divided by to bring its tap to the low end. -/
def lfsrTap (mode : Bool) : Nat := if mode = true then 2 ^ 6 else 2 ^ 1

/-- The shift register's step on numbers. -/
def lfsrNat (tap r : Nat) : Nat := r / 2 + 2 ^ 14 * ((r + r / tap) % 2)

theorem xor_testBit_toNat (r i : Nat) : (r.testBit 0 ^^ r.testBit i).toNat = (r + r / 2 ^ i) % 2 := by
  rw [Nat.testBit_zero, Nat.testBit_eq_decide_div_mod_eq]
  rcases Nat.mod_two_eq_zero_or_one r with h | h <;>
    rcases Nat.mod_two_eq_zero_or_one (r / 2 ^ i) with h' | h' <;> simp [h, h', Nat.add_mod]

theorem lfsrStep_toNat (mode : Bool) (r : BitVec 15) :
    (lfsrStep mode r).toNat = lfsrNat (lfsrTap mode) r.toNat := by
  have hr := r.isLt
  have hshifted : (r.extractLsb' 1 14).toNat = r.toNat / 2 := by
    rw [BitVec.extractLsb'_toNat, Nat.shiftRight_one, Nat.mod_eq_of_lt (by omega)]
  have hfeedback : (lfsrFeedback mode r).toNat = (r.toNat + r.toNat / lfsrTap mode) % 2 := by
    cases mode <;> exact xor_testBit_toNat _ _
  rw [lfsrStep, BitVec.toNat_append, Nat.shiftLeft_eq, Nat.mul_comm,
    ← Nat.two_pow_add_eq_or_of_lt (BitVec.isLt _), hshifted, BitVec.toNat_ofBool, Nat.add_comm, lfsrNat, ← hfeedback]
  rfl

theorem iterate_lfsrStep_toNat (mode : Bool) (n : Nat) (r : BitVec 15) :
    ((lfsrStep mode)^[n] r).toNat = (lfsrNat (lfsrTap mode))^[n] r.toNat :=
  (Function.Semiconj.iterate_right (f := BitVec.toNat) (lfsrStep_toNat mode) n).eq r

/-- Iteration that looks at each value before it goes on, so that evaluating it never nests. -/
def forcedIterate (f : Nat → Nat) : Nat → Nat → Nat
  | 0, x => x
  | n + 1, 0 => forcedIterate f n (f 0)
  | n + 1, x + 1 => forcedIterate f n (f (x + 1))

theorem forcedIterate_eq (f : Nat → Nat) (n x : Nat) : forcedIterate f n x = f^[n] x := by
  induction n generalizing x with
  | zero => rfl
  | succ n ih => cases x <;> exact ih _

/-- A run of `m * n` steps from the seed, evaluated as `n` runs of `m`. -/
theorem iterate_lfsrStep_eq_one_iff (mode : Bool) (m n : Nat) :
    (lfsrStep mode)^[m * n] 1 = 1 ↔ forcedIterate (forcedIterate (lfsrNat (lfsrTap mode)) m) n 1 = 1 := by
  have hinner : forcedIterate (lfsrNat (lfsrTap mode)) m = (lfsrNat (lfsrTap mode))^[m] :=
    funext (forcedIterate_eq _ m)
  rw [forcedIterate_eq, hinner, ← Function.iterate_mul, ← BitVec.toNat_inj, iterate_lfsrStep_toNat]
  rfl

/-- `32767 = 7 * 31 * 151`. -/
theorem minimalPeriod_lfsrStep_false : Function.minimalPeriod (lfsrStep false) 1 = 32767 := by
  refine minimalPeriod_eq_of_prime_factors ((iterate_lfsrStep_eq_one_iff false 217 151).2 (by decide +kernel))
    fun p hp hdvd => ?_
  have hfactor : p = 7 ∨ p = 31 ∨ p = 151 := by
    rw [show 32767 = 7 * (31 * 151) from rfl, hp.dvd_mul, hp.dvd_mul] at hdvd
    simpa [Nat.prime_dvd_prime_iff_eq hp, Nat.prime_seven, show Nat.Prime 31 by norm_num,
      show Nat.Prime 151 by norm_num] using hdvd
  obtain rfl | rfl | rfl := hfactor
  · exact (iterate_lfsrStep_eq_one_iff false 31 151).not.2 (by decide +kernel)
  · exact (iterate_lfsrStep_eq_one_iff false 7 151).not.2 (by decide +kernel)
  · exact (iterate_lfsrStep_eq_one_iff false 7 31).not.2 (by decide +kernel)

/-- `93 = 3 * 31`. -/
theorem minimalPeriod_lfsrStep_true : Function.minimalPeriod (lfsrStep true) 1 = 93 := by
  refine minimalPeriod_eq_of_prime_factors ((iterate_lfsrStep_eq_one_iff true 3 31).2 (by decide +kernel))
    fun p hp hdvd => ?_
  have hfactor : p = 3 ∨ p = 31 := by
    rw [show 93 = 3 * 31 from rfl, hp.dvd_mul] at hdvd
    simpa [Nat.prime_dvd_prime_iff_eq hp, Nat.prime_three, show Nat.Prime 31 by norm_num] using hdvd
  obtain rfl | rfl := hfactor
  · exact (iterate_lfsrStep_eq_one_iff true 31 1).not.2 (by decide +kernel)
  · exact (iterate_lfsrStep_eq_one_iff true 3 1).not.2 (by decide +kernel)

/-- Settles O49. -/
theorem noiseSequenceLengths : Obligations.NoiseSequenceLengths := by
  unfold Obligations.NoiseSequenceLengths
  exact ⟨times_of_minimalPeriod_eq minimalPeriod_lfsrStep_false, times_of_minimalPeriod_eq minimalPeriod_lfsrStep_true⟩

end Sys2Proof
end

section
/-! PROOFS. The units the frame ticks clock, over any number of ticks: length counters (R73), envelopes (R79),
idle sweeps (R84) and the linear counter (R97). -/

namespace Sys2Proof

open Sys2Proof.Machine

/-- A part that steps by itself steps by itself over a run. -/
theorem times_map {α β : Type} {g : α → β} {f : α → α} {h : β → β} (hstep : ∀ x, g (f x) = h (g x)) (n : Nat) (x : α) :
    g (times f n x) = times h n (g x) := by
  induction n generalizing x with
  | zero => rfl
  | succ n ih => rw [times, ih, hstep]; rfl

/-- What every step keeps, a run keeps. -/
theorem times_induction {α : Type} {P : α → Prop} {f : α → α} (hstep : ∀ x, P x → P (f x)) (n : Nat) {x : α} (h : P x) :
    P (times f n x) := by
  induction n generalizing x with
  | zero => exact h
  | succ n ih => exact ih (hstep x h)

/-! ### Length counters -/

theorem Machine.LengthCounter.times_clock_haltFlag (l : LengthCounter) (n : Nat) :
    (times LengthCounter.clock n l).haltFlag = l.haltFlag :=
  times_induction (P := fun x : LengthCounter => x.haltFlag = l.haltFlag) (fun x hx => x.clock_haltFlag.trans hx) n rfl

theorem Machine.LengthCounter.times_clock_of_running {l : LengthCounter} (h : l.haltFlag = false) (n : Nat) :
    (times LengthCounter.clock n l).value.toNat = l.value.toNat - n := by
  induction n with
  | zero => rfl
  | succ n ih =>
    have hrunning : ¬ (times LengthCounter.clock n l).haltFlag = true := by simp [l.times_clock_haltFlag, h]
    rw [times_succ, LengthCounter.clock_value_toNat, if_neg hrunning, ih, Nat.sub_sub]

theorem Machine.LengthCounter.times_clock_of_halted {l : LengthCounter} (h : l.haltFlag = true) (n : Nat) :
    times LengthCounter.clock n l = l :=
  times_induction (P := (· = l)) (by rintro x rfl; exact if_neg (by simp [h])) n rfl

/-- Settles O45. A half-frame tick clocks each of the four counters by itself. -/
theorem lengthCountersCountDown : Obligations.LengthCountersCountDown := by
  unfold Obligations.LengthCountersCountDown
  intro a n f hf
  have hclock (b : Apu) : f b.half = (f b).clock := by
    simp only [List.mem_cons, List.not_mem_nil, or_false] at hf
    rcases hf with rfl | rfl | rfl | rfl <;> rfl
  rw [times_map hclock]
  exact ⟨fun h => LengthCounter.times_clock_of_running h n, fun h => LengthCounter.times_clock_of_halted h n⟩

/-! ### Envelopes

The divider takes `volume + 1` ticks from one reload to the next, so a run is cut into periods of so many
ticks, each of which is one decay step, and a rest. -/

/-- An envelope whose decay step is done. -/
def Machine.Envelope.decayed (e : Envelope) : Envelope := { e with decayCounter := e.decay }

theorem Machine.Envelope.clock_of_zero {e : Envelope} (h : e.divider = 0) :
    e.clock = { e.decayed with divider := e.volume } := if_pos h

theorem Machine.Envelope.clock_of_ne {e : Envelope} (h : e.divider ≠ 0) :
    e.clock = { e with divider := e.divider - 1 } := if_neg h

/-- While the divider counts, the rest stands. -/
theorem Machine.Envelope.times_clock_within {e : Envelope} {r : Nat} (h : r ≤ e.divider.toNat) :
    times Envelope.clock r e = { e with divider := BitVec.ofNat 4 (e.divider.toNat - r) } := by
  induction r with
  | zero => simp [times]
  | succ r ih =>
    have hne : BitVec.ofNat 4 (e.divider.toNat - r) ≠ 0 := by bv_omega
    have hcount : BitVec.ofNat 4 (e.divider.toNat - r) - 1 = BitVec.ofNat 4 (e.divider.toNat - (r + 1)) := by
      bv_omega
    rw [times_succ, ih (by omega), clock_of_ne hne, hcount]

theorem Machine.Envelope.times_clock_period {e : Envelope} (h : e.divider = e.volume) :
    times Envelope.clock (e.volume.toNat + 1) e = e.decayed := by
  have hzero : BitVec.ofNat 4 (e.divider.toNat - e.volume.toNat) = 0 := by rw [h, Nat.sub_self]; rfl
  rw [times_succ, times_clock_within (h ▸ le_rfl), clock_of_zero hzero]
  simp only [Envelope.decayed, h]
  rfl

theorem Machine.Envelope.times_clock_periods {e : Envelope} (h : e.divider = e.volume) (q : Nat) :
    times Envelope.clock (q * (e.volume.toNat + 1)) e = times Envelope.decayed q e := by
  induction q generalizing e with
  | zero => rw [Nat.zero_mul]; rfl
  | succ q ih =>
    rw [Nat.succ_mul, Nat.add_comm, times_add, times_clock_period h]
    exact ih (e := e.decayed) h

theorem Machine.Envelope.times_decayed_frame (e : Envelope) (q : Nat) :
    ∃ v, times Envelope.decayed q e = { e with decayCounter := v } :=
  times_induction (P := fun x : Envelope => ∃ v, x = { e with decayCounter := v })
    (by rintro x ⟨v, rfl⟩; exact ⟨_, rfl⟩) q ⟨e.decayCounter, rfl⟩

/-- `n` ticks are a whole number of periods and a rest in which the decay counter stands. -/
theorem Machine.Envelope.times_clock_decayCounter {e : Envelope} (h : e.divider = e.volume) (n : Nat) :
    (times Envelope.clock n e).decayCounter
      = (times Envelope.decayed (n / (e.volume.toNat + 1)) e).decayCounter := by
  have hrest : n % (e.volume.toNat + 1) ≤ e.divider.toNat := by
    rw [h]; exact Nat.le_of_lt_succ (Nat.mod_lt _ (Nat.succ_pos _))
  have hsplit : n = n / (e.volume.toNat + 1) * (e.volume.toNat + 1) + n % (e.volume.toNat + 1) :=
    (Nat.div_add_mod' n _).symm
  obtain ⟨v, hframe⟩ := e.times_decayed_frame (n / (e.volume.toNat + 1))
  conv_lhs => rw [hsplit, times_add, times_clock_periods h, hframe, times_clock_within (e := { e with decayCounter := v }) hrest]
  rw [hframe]

theorem Machine.Envelope.decay_toNat {e : Envelope} (h : e.loopFlag = false ∨ e.decayCounter ≠ 0) :
    e.decay.toNat = e.decayCounter.toNat - 1 := by
  rw [Envelope.decay]
  split
  case isTrue hne => bv_omega
  case isFalse hzero =>
    rw [not_not.1 hzero, h.resolve_right hzero]
    rfl

/-- The decay counter goes down to 0, and without loop stays there. -/
theorem Machine.Envelope.times_decayed_toNat {e : Envelope} {q : Nat}
    (h : e.loopFlag = false ∨ q ≤ e.decayCounter.toNat) :
    (times Envelope.decayed q e).decayCounter.toNat = e.decayCounter.toNat - q := by
  induction q with
  | zero => rfl
  | succ q ih =>
    have hprev := ih (h.imp_right (by omega))
    obtain ⟨v, hframe⟩ := e.times_decayed_frame q
    rw [hframe] at hprev
    rw [times_succ, hframe, ← Nat.sub_sub, ← hprev]
    exact decay_toNat (e := { e with decayCounter := v }) (h.imp_right fun hle hzero => by bv_omega)

/-- With loop, the sixteenth decay step after a start wraps from 0 to 15. -/
theorem Machine.Envelope.times_decayed_start_of_loop {e : Envelope} (h : e.loopFlag = true) :
    times Envelope.decayed 16 e.start = e.start := by
  obtain ⟨v, hframe⟩ := e.start.times_decayed_frame 15
  have hzero : v.toNat = 15 - 15 := by
    have hdecayed := times_decayed_toNat (e := e.start) (q := 15) (.inr le_rfl)
    rwa [hframe] at hdecayed
  obtain rfl : v = 0 := BitVec.eq_of_toNat_eq hzero
  rw [times_succ, hframe]
  simp [Envelope.decayed, Envelope.decay, Envelope.start, h]

/-- Settles O46. -/
theorem envelopeDecayTime : Obligations.EnvelopeDecayTime := by
  unfold Obligations.EnvelopeDecayTime
  intro e n
  have hdecay : (times Envelope.clock n e.start).decayCounter
      = (times Envelope.decayed (n / (e.volume.toNat + 1)) e.start).decayCounter :=
    Envelope.times_clock_decayCounter (e := e.start) rfl n
  have hfull : e.start.decayCounter.toNat = 15 := rfl
  rw [hdecay]
  refine ⟨fun hlt => ?counting, fun hloop hle => ?resting, fun hloop => ?wrapping⟩
  case counting =>
    have hq : n / (e.volume.toNat + 1) < 16 := Nat.div_lt_of_lt_mul (by rwa [Nat.mul_comm])
    exact Envelope.times_decayed_toNat (.inr (by omega))
  case resting =>
    have hq : 16 ≤ n / (e.volume.toNat + 1) := (Nat.le_div_iff_mul_le (Nat.succ_pos _)).2 hle
    have hcount := Envelope.times_decayed_toNat (e := e.start) (q := n / (e.volume.toNat + 1)) (.inl hloop)
    exact BitVec.eq_of_toNat_eq (hcount.trans (Nat.sub_eq_zero_of_le (by omega)))
  case wrapping =>
    exact (Envelope.times_clock_periods (e := e.start) rfl 16).trans (Envelope.times_decayed_start_of_loop hloop)

/-! ### Idle sweeps -/

/-- A sweep that never applies its target: disabled, or of shift count 0 (R84). -/
def Machine.Pulse.SweepIdle (p : Pulse) : Prop := p.sweep.enabled = false ∨ p.sweep.shiftCount = 0

theorem Machine.Pulse.SweepIdle.times_halfFrame_timerPeriod {p : Pulse} (h : p.SweepIdle) (u : PulseUnit) (n : Nat) :
    (times (Pulse.halfFrame u) n p).timerPeriod = p.timerPeriod := by
  refine (times_induction (P := fun x : Pulse => x.timerPeriod = p.timerPeriod ∧ x.SweepIdle) ?_ n ⟨rfl, h⟩).1
  rintro x ⟨hperiod, hidle⟩
  refine ⟨(Pulse.sweptPeriod_of_idle u hidle).trans hperiod, ?_⟩
  rwa [Pulse.SweepIdle, Pulse.halfFrame_sweep, Sweep.clockDivider_enabled, Sweep.clockDivider_shiftCount]

/-- Settles O47. -/
theorem idleSweepKeepsPeriod : Obligations.IdleSweepKeepsPeriod := by
  unfold Obligations.IdleSweepKeepsPeriod
  intro a n
  rw [times_map (g := Apu.p1) Apu.half_p1, times_map (g := Apu.p2) Apu.half_p2]
  exact ⟨fun h => Pulse.SweepIdle.times_halfFrame_timerPeriod h .unit1 n,
    fun h => Pulse.SweepIdle.times_halfFrame_timerPeriod h .unit2 n⟩

/-! ### The linear counter -/

/-- With the halt bit clear the reload flag lasts one tick, and then the counter runs down. -/
theorem Machine.Triangle.times_linearClock_of_running (t : Triangle) (r : BitVec 7) (n : Nat) :
    (times Triangle.linearClock (n + 1) (t.writeCtrl false r)).linearCounter.toNat = r.toNat - n
    ∧ (times Triangle.linearClock (n + 1) (t.writeCtrl false r)).linearControlFlag = false
    ∧ (times Triangle.linearClock (n + 1) (t.writeCtrl false r)).length.haltFlag = false := by
  induction n with
  | zero => exact ⟨rfl, rfl, rfl⟩
  | succ n ih =>
    obtain ⟨hcounter, hflag, hhalt⟩ := ih
    rw [times_succ]
    generalize times Triangle.linearClock (n + 1) (t.writeCtrl false r) = u at hcounter hflag hhalt
    rw [Triangle.linearClock_eq, hflag, hhalt]
    refine ⟨?_, rfl, rfl⟩
    rw [← Nat.sub_sub, ← hcounter]
    by_cases hzero : u.linearCounter = 0
    case pos => simp [hzero]
    case neg => simp only [Bool.false_eq_true, if_false, if_pos hzero]; bv_omega

/-- With the halt bit set every tick reloads the counter. -/
theorem Machine.Triangle.times_linearClock_of_halted (t : Triangle) (r : BitVec 7) (n : Nat) :
    times Triangle.linearClock (n + 1) (t.writeCtrl true r) = { t.writeCtrl true r with linearCounter := r } :=
  times_induction (P := (· = { t.writeCtrl true r with linearCounter := r })) (by rintro x rfl; rfl) n rfl

/-- Settles O48. -/
theorem linearCounterReloadsOnce : Obligations.LinearCounterReloadsOnce := by
  unfold Obligations.LinearCounterReloadsOnce
  intro t r n
  obtain ⟨hcounter, hflag, -⟩ := t.times_linearClock_of_running r n
  rw [t.times_linearClock_of_halted r n]
  exact ⟨⟨hcounter, hflag⟩, rfl, rfl⟩

end Sys2Proof
end

section
/-! PROOFS. Rules about all events: what sets and clears the interrupt flags (R131), which events write a field
(R11 to R17), and that the pulse units share no state. -/

namespace Sys2Proof

open Sys2Proof.Machine

/-! ### The interrupt flags -/

/-- Of the events other than `CLK`, three touch the frame sequencer's flag; none sets it. -/
theorem exec_frame_irqFlag {i : Instr} {s t : State} (h : exec i s = .next t) :
    i = .clk ∨ t.apu.frame.irqFlag = s.apu.frame.irqFlag
    ∨ (t.apu.frame.irqFlag = false ∧ (i = .rdStatus ∨ (∃ m, i = .wrFrame m true) ∨ i = .reset)) := by
  cases i <;> obtain rfl := Host.Outcome.next.inj h
  case clk => exact .inl rfl
  case rdStatus => exact .inr (.inr ⟨rfl, .inl rfl⟩)
  case reset => exact .inr (.inr ⟨rfl, .inr (.inr rfl)⟩)
  case wrFrame m q =>
    rw [State.update_apu, Apu.writeFrame_frame]
    cases q
    case false => exact .inr (.inl rfl)
    case true => exact .inr (.inr ⟨rfl, .inr (.inl ⟨m, rfl⟩)⟩)
  all_goals exact .inr (.inl rfl)

/-- A sequencer clock touches its flag only where a 4-step sequence ends. -/
theorem fsClock_irqFlag (c : Cfg) (a : Apu) :
    (a.fsClock c).frame.irqFlag = a.frame.irqFlag
    ∨ (a.frame.mode = .fourStep ∧ (a.frame.cycleCounter + 1).toNat = c.fsD ∧ (a.fsClock c).frame.cycleCounter = 0
      ∧ (a.fsClock c).frame.irqFlag = (a.frame.irqFlag || !a.frame.irqInhibit)) := by
  rcases a.fsClock_cases c with h | h | h | ⟨hmode, hcount, h⟩ | ⟨-, -, h⟩ <;> rw [h]
  · exact .inl rfl
  · exact .inl rfl
  · exact .inl rfl
  · exact .inr ⟨hmode, hcount, rfl, rfl⟩
  · exact .inl rfl

/-- A flag that stays is neither set nor cleared. -/
theorem flag_clauses_of_eq {before now : Bool} (h : now = before) {P Q : Prop} :
    (before = false → now = true → P) ∧ (before = true → now = false → Q) := by
  subst h
  exact ⟨fun h0 h1 => absurd (h0.symm.trans h1) Bool.false_ne_true,
    fun h1 h0 => absurd (h0.symm.trans h1) Bool.false_ne_true⟩

/-- Settles O38. -/
theorem frameInterruptSources : Obligations.FrameInterruptSources := by
  unfold Obligations.FrameInterruptSources
  intro i s t hexec
  obtain rfl | hsame | ⟨hclear, hsource⟩ := exec_frame_irqFlag hexec
  · obtain rfl := Host.Outcome.next.inj hexec
    rw [clock_frame]
    obtain hsame | ⟨hmode, hcount, hzero, hflag⟩ := fsClock_irqFlag s.cfg s.apu
    · exact flag_clauses_of_eq hsame
    · rw [hflag]
      refine ⟨fun hbefore hset => ⟨rfl, hmode, ?_, hcount, hzero⟩, fun hbefore hclear => ?_⟩
      · simpa [hbefore] using hset
      · simp [hbefore] at hclear
  · exact flag_clauses_of_eq hsame
  · exact ⟨fun _ hset => absurd (hclear.symm.trans hset) Bool.false_ne_true, fun _ _ => hsource⟩

/-- Of the events other than `CLK`, three touch the DMC's flag; none sets it. -/
theorem exec_dmc_irqFlag {i : Instr} {s t : State} (h : exec i s = .next t) :
    i = .clk ∨ t.apu.dmc.irqFlag = s.apu.dmc.irqFlag
    ∨ (t.apu.dmc.irqFlag = false
      ∧ (i.mnemonic = "WR_STATUS" ∨ (∃ l r, i = .wrDmcCtrl false l r) ∨ i = .reset)) := by
  cases i <;> obtain rfl := Host.Outcome.next.inj h
  case clk => exact .inl rfl
  case wrStatus => exact .inr (.inr ⟨rfl, .inl rfl⟩)
  case reset => exact .inr (.inr ⟨rfl, .inr (.inr rfl)⟩)
  case wrDmcCtrl q l r =>
    cases q
    case false => exact .inr (.inr ⟨rfl, .inr (.inl ⟨l, r, rfl⟩)⟩)
    case true => exact .inr (.inl rfl)
  case wrFrame m q => exact .inr (.inl (congrArg Dmc.irqFlag (s.apu.writeFrame_dmc m q)))
  all_goals exact .inr (.inl rfl)

/-- The DMC's clock touches its flag only where it finds nothing to play and no loop. -/
theorem dmcTimerClock_irqFlag (c : Cfg) (s : State) :
    (dmcTimerClock c s).apu.dmc.irqFlag = s.apu.dmc.irqFlag
    ∨ (s.apu.dmc.timerCounter = 0 ∧ s.apu.dmc.bitsRemaining = 0 ∧ s.apu.dmc.bytesRemaining = 0
      ∧ s.apu.dmc.loopFlag = false ∧ (dmcTimerClock c s).apu.dmc.silenceFlag = true
      ∧ (dmcTimerClock c s).apu.dmc.irqFlag = (s.apu.dmc.irqFlag || s.apu.dmc.irqEnable)) := by
  have hrestart := s.apu.dmc.loopRestart_cases s.apu.chanEnable.dmc
  rcases dmcTimerClock_cases c s with ⟨-, e, -⟩ | ⟨-, -, e, -⟩ | ⟨htick, hbits, hbytes, e, -⟩ |
    ⟨-, -, -, ⟨b, e⟩, -⟩ <;> rw [e]
  · exact .inl rfl
  · exact .inl (Dmc.outputStep_irqFlag _)
  · have hflag : ((s.apu.dmc.loopRestart s.apu.chanEnable.dmc).reloaded c).starve.irqFlag
        = (s.apu.dmc.irqFlag || (!s.apu.dmc.loopFlag && s.apu.dmc.irqEnable)) := by
      obtain ⟨-, -, -, hd⟩ | ⟨-, hd⟩ := hrestart <;> rw [hd] <;> rfl
    cases hloop : s.apu.dmc.loopFlag
    case true => exact .inl (by rw [hflag, hloop, Bool.not_true, Bool.false_and, Bool.or_false])
    case false =>
      obtain ⟨-, hrestarts, -, -⟩ | ⟨-, hd⟩ := hrestart
      · exact absurd (hloop.symm.trans hrestarts) Bool.false_ne_true
      · rw [hd] at hbytes
        exact .inr ⟨htick, hbits, hbytes, rfl, rfl, by rw [hflag, hloop, Bool.not_false, Bool.true_and]⟩
  · rw [Dmc.outputStep_irqFlag]
    obtain ⟨-, -, -, hd⟩ | ⟨-, hd⟩ := hrestart <;> rw [hd] <;> exact .inl rfl

/-- Settles O39. -/
theorem dmcInterruptSources : Obligations.DmcInterruptSources := by
  unfold Obligations.DmcInterruptSources
  intro i s t hexec
  obtain rfl | hsame | ⟨hclear, hsource⟩ := exec_dmc_irqFlag hexec
  · obtain rfl := Host.Outcome.next.inj hexec
    rw [clock_dmc]
    obtain hsame | ⟨htick, hbits, hbytes, hloop, hsilent, hflag⟩ := dmcTimerClock_irqFlag s.cfg s
    · exact flag_clauses_of_eq hsame
    · rw [hflag]
      refine ⟨fun hbefore hset => ⟨rfl, htick, hbits, hbytes, hloop, ?_, hsilent⟩, fun hbefore hclear => ?_⟩
      · simpa [hbefore] using hset
      · simp [hbefore] at hclear
  · exact flag_clauses_of_eq hsame
  · exact ⟨fun _ hset => absurd (hclear.symm.trans hset) Bool.false_ne_true, fun _ _ => hsource⟩

/-! ### The writers of each field -/

section
variable (c : Cfg) (a : Apu) (s : State)

@[simp] theorem Machine.Apu.fsClock_p1_dutySelect : (a.fsClock c).p1.dutySelect = a.p1.dutySelect := by
  rcases a.fsClock_cases c with h | h | h | ⟨_, _, h⟩ | ⟨_, _, h⟩ <;> simp [h]
@[simp] theorem Machine.Apu.fsClock_p2_dutySelect : (a.fsClock c).p2.dutySelect = a.p2.dutySelect := by
  rcases a.fsClock_cases c with h | h | h | ⟨_, _, h⟩ | ⟨_, _, h⟩ <;> simp [h]
@[simp] theorem Machine.Apu.fsClock_tri_timerPeriod : (a.fsClock c).tri.timerPeriod = a.tri.timerPeriod := by
  rcases a.fsClock_cases c with h | h | h | ⟨_, _, h⟩ | ⟨_, _, h⟩ <;> simp [h, Triangle.linearClock]
@[simp] theorem Machine.Apu.fsClock_tri_linearCounterReload :
    (a.fsClock c).tri.linearCounterReload = a.tri.linearCounterReload := by
  rcases a.fsClock_cases c with h | h | h | ⟨_, _, h⟩ | ⟨_, _, h⟩ <;> simp [h, Triangle.linearClock]
@[simp] theorem Machine.Apu.fsClock_noise_periodIndex : (a.fsClock c).noise.periodIndex = a.noise.periodIndex := by
  rcases a.fsClock_cases c with h | h | h | ⟨_, _, h⟩ | ⟨_, _, h⟩ <;> simp [h]
@[simp] theorem Machine.Apu.fsClock_noise_modeFlag : (a.fsClock c).noise.modeFlag = a.noise.modeFlag := by
  rcases a.fsClock_cases c with h | h | h | ⟨_, _, h⟩ | ⟨_, _, h⟩ <;> simp [h]
@[simp] theorem Machine.Apu.fsClock_irqInhibit : (a.fsClock c).frame.irqInhibit = a.frame.irqInhibit := by
  rcases a.fsClock_cases c with h | h | h | ⟨_, _, h⟩ | ⟨_, _, h⟩ <;> simp [h, Apu.counted]

end

/-- Of a pulse channel a clock leaves the duty select. -/
theorem Machine.clock_dutySelect (c : Cfg) (s : State) :
    (clock c s).apu.p1.dutySelect = s.apu.p1.dutySelect ∧ (clock c s).apu.p2.dutySelect = s.apu.p2.dutySelect := by
  rw [clock_p1, clock_p2]
  split <;> simp

theorem Machine.clock_tri_settings (c : Cfg) (s : State) :
    (clock c s).apu.tri.timerPeriod = s.apu.tri.timerPeriod
    ∧ (clock c s).apu.tri.linearCounterReload = s.apu.tri.linearCounterReload := by
  rw [clock_tri]
  split <;> simp [Triangle.timerTick]

theorem Machine.clock_noise_settings (c : Cfg) (s : State) :
    (clock c s).apu.noise.periodIndex = s.apu.noise.periodIndex
    ∧ (clock c s).apu.noise.modeFlag = s.apu.noise.modeFlag := by
  rw [clock_noise]
  split <;> simp [Noise.timerTick]

theorem Machine.clock_dmc_settings (c : Cfg) (s : State) :
    (clock c s).apu.dmc.sampleAddress = s.apu.dmc.sampleAddress
    ∧ (clock c s).apu.dmc.sampleLength = s.apu.dmc.sampleLength
    ∧ (clock c s).apu.dmc.rateIndex = s.apu.dmc.rateIndex := by
  rw [clock_dmc]
  have hrestart := s.apu.dmc.loopRestart_cases s.apu.chanEnable.dmc
  rcases dmcTimerClock_cases c s with ⟨-, e, -⟩ | ⟨-, -, e, -⟩ | ⟨-, -, -, e, -⟩ | ⟨-, -, -, ⟨b, e⟩, -⟩ <;> rw [e]
  · exact ⟨rfl, rfl, rfl⟩
  · simp [Dmc.reloaded]
  · obtain ⟨-, -, -, hd⟩ | ⟨-, hd⟩ := hrestart <;> rw [hd] <;> exact ⟨rfl, rfl, rfl⟩
  · obtain ⟨-, -, -, hd⟩ | ⟨-, hd⟩ := hrestart <;> rw [hd] <;> simp [Dmc.reloaded, Dmc.fetch, Dmc.restart]

/-- Settles O40, event by event: a clock leaves the settings named above, a frame write in 5-step mode ticks and
no more, and any other write leaves all but the fields it is for, by its definition. -/
theorem fieldsChangeOnlyByTheirWriters : Obligations.FieldsChangeOnlyByTheirWriters := by
  unfold Obligations.FieldsChangeOnlyByTheirWriters
  intro i s t hexec hreset byOnly
  cases i <;> obtain rfl := Host.Outcome.next.inj hexec
  case clk =>
    obtain ⟨hduty1, hduty2⟩ := clock_dutySelect s.cfg s
    obtain ⟨hperiod, hreload⟩ := clock_tri_settings s.cfg s
    obtain ⟨hindex, hmode⟩ := clock_noise_settings s.cfg s
    obtain ⟨haddr, hlen, hrate⟩ := clock_dmc_settings s.cfg s
    simp [byOnly, Instr.mnemonic, hduty1, hduty2, hperiod, hreload, hindex, hmode, haddr, hlen, hrate]
  case reset => exact absurd rfl hreset
  case wrFrame m q =>
    cases m <;> simp [byOnly, Instr.mnemonic, Apu.writeFrame, Triangle.linearClock]
  all_goals
    simp [byOnly, Instr.mnemonic, Pulse.writeCtrl, Pulse.writeSweep, Pulse.writeLow, Pulse.writeHigh,
      Triangle.writeCtrl, Triangle.writeLow, Triangle.writeHigh, Noise.writeEnv, Noise.writePeriod,
      Noise.writeLength, Dmc.writeCtrl, Dmc.writeLoad, Dmc.writeAddr, Dmc.writeLength, Apu.writeStatus,
      Dmc.gate_eq, Dmc.clearIrq, FrameSequencer.clearIrq]

/-! ### The pulse units

Said once for both: what is true of one unit is true of the other with the names changed. -/

/-- The other unit. -/
def Machine.PulseUnit.other : PulseUnit → PulseUnit
  | .unit1 => .unit2
  | .unit2 => .unit1

/-- A unit of the block. -/
def Machine.Apu.pulse (u : PulseUnit) (a : Apu) : Pulse :=
  match u with
  | .unit1 => a.p1
  | .unit2 => a.p2

/-- The block with a unit replaced. -/
def Machine.Apu.withPulse (u : PulseUnit) (a : Apu) (p : Pulse) : Apu :=
  match u with
  | .unit1 => a.withP1 p
  | .unit2 => a.withP2 p

section
variable (c : Cfg) (a : Apu) (s : State) (u : PulseUnit) (p : Pulse)

theorem Machine.clock_pulse : (clock c s).apu.pulse u =
    if s.apu.phase = false then ((s.apu.fsClock c).pulse u).timerTick else (s.apu.fsClock c).pulse u := by
  cases u
  case unit1 => exact clock_p1 c s
  case unit2 => exact clock_p2 c s

/-- The counts read no unit but to step it. -/
theorem Machine.Apu.fourStepAt_withPulse (n : Nat) : (a.withPulse u p).fourStepAt c n
    = (a.fourStepAt c n).withPulse u (((a.withPulse u p).fourStepAt c n).pulse u) := by
  unfold Apu.fourStepAt
  split_ifs <;> cases u <;> rfl

theorem Machine.Apu.fiveStepAt_withPulse (n : Nat) : (a.withPulse u p).fiveStepAt c n
    = (a.fiveStepAt c n).withPulse u (((a.withPulse u p).fiveStepAt c n).pulse u) := by
  unfold Apu.fiveStepAt
  split_ifs <;> cases u <;> rfl

theorem Machine.Apu.fsClock_withPulse : (a.withPulse u p).fsClock c
    = (a.fsClock c).withPulse u (((a.withPulse u p).fsClock c).pulse u) := by
  have hframe : (a.withPulse u p).frame = a.frame := by cases u <;> rfl
  have hcounted : (a.withPulse u p).counted = a.counted.withPulse u p := by cases u <;> rfl
  cases hmode : a.frame.mode
  case fourStep =>
    rw [Apu.fsClock_of_fourStep c hmode, Apu.fsClock_of_fourStep c (hframe ▸ hmode), hframe, hcounted]
    exact fourStepAt_withPulse c a.counted u p _
  case fiveStep =>
    rw [Apu.fsClock_of_fiveStep c hmode, Apu.fsClock_of_fiveStep c (hframe ▸ hmode), hframe, hcounted]
    exact fiveStepAt_withPulse c a.counted u p _

/-- A block that differs from another in one unit alone. -/
theorem Machine.Apu.eq_withPulse_of {a b : Apu} {u : PulseUnit} (hother : b.pulse u.other = a.pulse u.other)
    (htri : b.tri = a.tri) (hnoise : b.noise = a.noise) (hdmc : b.dmc = a.dmc) (hframe : b.frame = a.frame)
    (hchan : b.chanEnable = a.chanEnable) (hphase : b.phase = a.phase) (hacc : b.sampleAcc = a.sampleAcc) :
    b = a.withPulse u (b.pulse u) := by
  obtain ⟨_, _, _, _, _, _, _, _, _⟩ := a
  obtain ⟨_, _, _, _, _, _, _, _, _⟩ := b
  cases htri; cases hnoise; cases hdmc; cases hframe; cases hchan; cases hphase; cases hacc
  cases u <;> cases hother <;> rfl

/-- What the DMC's clock depends on holds no pulse unit. -/
theorem Machine.dmcTimerClock_withPulse :
    (dmcTimerClock c (s.withApu (s.apu.withPulse u p))).apu.dmc = (dmcTimerClock c s).apu.dmc
    ∧ (dmcTimerClock c (s.withApu (s.apu.withPulse u p))).memReads = (dmcTimerClock c s).memReads := by
  cases u <;> exact dmcTimerClock_congr c rfl rfl rfl rfl

theorem Machine.clock_withPulse : (clock c (s.withApu (s.apu.withPulse u p))).apu
    = (clock c s).apu.withPulse u ((clock c (s.withApu (s.apu.withPulse u p))).apu.pulse u) := by
  have hphase : (s.apu.withPulse u p).phase = s.apu.phase := by cases u <;> rfl
  have hfs := s.apu.fsClock_withPulse c u p
  generalize ((s.apu.withPulse u p).fsClock c).pulse u = q at hfs
  apply Apu.eq_withPulse_of
  · rw [clock_pulse, clock_pulse, State.withApu_apu, hfs, hphase]; cases u <;> rfl
  · rw [clock_tri, clock_tri, State.withApu_apu, hfs, hphase]; cases u <;> rfl
  · rw [clock_noise, clock_noise, State.withApu_apu, hfs, hphase]; cases u <;> rfl
  · rw [clock_dmc, clock_dmc, (dmcTimerClock_withPulse c s u p).1]
  · rw [clock_frame, clock_frame, State.withApu_apu, hfs]; cases u <;> rfl
  · rw [clock_chanEnable, clock_chanEnable]; cases u <;> rfl
  · rw [clock_phase, clock_phase]; cases u <;> rfl
  · rw [clock_sampleAcc, clock_sampleAcc]; cases u <;> rfl

theorem Machine.clock_withPulse_memAddr :
    (clock c (s.withApu (s.apu.withPulse u p))).out.memAddr = (clock c s).out.memAddr := by
  rw [clock_memAddr, clock_memAddr, dmcTimerClock_memAddr, dmcTimerClock_memAddr, (dmcTimerClock_withPulse c s u p).2]
  cases u <;> rfl

/-- One unit's state, whatever it is, reaches nothing of an event's outcome but that unit, the sample and the
status byte. -/
theorem exec_withPulse {i : Instr} {t v : State} (ht : exec i s = .next t)
    (hv : exec i (s.withApu (s.apu.withPulse u p)) = .next v) :
    v.apu = t.apu.withPulse u (v.apu.pulse u) ∧ v.mem = t.mem ∧ v.events = t.events ∧ v.memReads = t.memReads
    ∧ v.out.memAddr = t.out.memAddr ∧ v.cfg = t.cfg := by
  cases i <;> obtain rfl := Host.Outcome.next.inj ht <;> obtain rfl := Host.Outcome.next.inj hv
  case clk =>
    refine ⟨clock_withPulse _ s u p, by simp, by simp, ?_, clock_withPulse_memAddr _ s u p, by simp⟩
    rw [clock_memReads, clock_memReads]
    exact (dmcTimerClock_withPulse _ s u p).2
  case wrFrame m q => cases u <;> cases m <;> exact ⟨rfl, rfl, rfl, rfl, rfl, rfl⟩
  all_goals cases u <;> exact ⟨rfl, rfl, rfl, rfl, rfl, rfl⟩

end

/-- Settles O41. -/
theorem pulseUnitsAreIndependent : Obligations.PulseUnitsAreIndependent := by
  unfold Obligations.PulseUnitsAreIndependent
  exact fun i s t u p => ⟨exec_withPulse s .unit2 p, exec_withPulse s .unit1 p⟩

end Sys2Proof
end

section
/-! PROOFS. Muted channels (R122, R126) and the enable before a length load (R147). -/

namespace Sys2Proof

open Sys2Proof.Machine

/-! ### Muted channels -/

@[simp] theorem Machine.gated_false {w : Nat} (v : BitVec w) : gated false v = 0 := rfl

/-- A gated output depends on the channel only where it is enabled. -/
theorem Machine.gated_congr {α : Type} {w : Nat} {enable : Bool} {x y : α} (output : α → BitVec w)
    (h : enable = true → x = y) : gated enable (output x) = gated enable (output y) := by
  cases enable
  case false => rfl
  case true => rw [h rfl]

/-- Settles O43. -/
theorem mutedChannelsContributeNothing : Obligations.MutedChannelsContributeNothing := by
  unfold Obligations.MutedChannelsContributeNothing
  intro c a b hchan hp1 hp2 htri hnoise hdmc
  rw [Apu.mix, Apu.mix, Apu.mixLevel, Apu.mixLevel, ← hchan, gated_congr (Pulse.output c .unit1) hp1,
    gated_congr (Pulse.output c .unit2) hp2, gated_congr (Triangle.output c) htri, gated_congr Noise.output hnoise,
    gated_congr Dmc.output hdmc]

theorem Machine.Apu.mix_of_disabled (c : Cfg) {a : Apu} (h : a.chanEnable = .reset) : a.mix c = 0 := by
  rw [Apu.mix, Apu.mixLevel, h]
  simp [ChanEnable.reset]

/-- A status write apart, an event leaves the enables or, on reset, clears them. -/
theorem exec_keeps_disabled {i : Instr} {s t : State} (hexec : exec i s = .next t) (hi : i.mnemonic ≠ "WR_STATUS")
    (h : s.apu.chanEnable = .reset) : t.apu.chanEnable = .reset := by
  by_cases hreset : i = .reset
  case pos =>
    subst hreset
    obtain rfl := Host.Outcome.next.inj hexec
    rfl
  case neg =>
    obtain ⟨hwriter, -⟩ := fieldsChangeOnlyByTheirWriters i s t hexec hreset
    by_contra hne
    have hwrites := hwriter (fun hsame => hne (hsame.trans h))
    exact hi (List.mem_singleton.1 hwrites)

/-- A sample is the mix of the block its clock leaves. -/
theorem exec_sample {i : Instr} {s t : State} (hexec : exec i s = .next t) :
    ∀ v ∈ t.out.sample.toList, v = t.apu.mix s.cfg := by
  obtain ⟨-, rfl⟩ | ⟨-, a, b, rfl⟩ := exec_cases hexec
  · rw [clock_sample]
    split <;> simp
  · simp

theorem samplesOf_of_disabled (es : List Instr) {s : State} (h : s.apu.chanEnable = .reset)
    (hes : ∀ i ∈ es, i.mnemonic ≠ "WR_STATUS") : ∀ v ∈ samplesOf es s, v = 0 := by
  induction es generalizing s with
  | nil => exact List.forall_mem_nil _
  | cons i es ih =>
    obtain ⟨t, ht⟩ := exec_total i s
    obtain ⟨hi, hes⟩ := List.forall_mem_cons.1 hes
    have hdisabled := exec_keeps_disabled ht hi h
    intro v hv
    rw [samplesOf, ht] at hv
    obtain hnow | hlater := List.mem_append.1 hv
    · exact (exec_sample ht v hnow).trans (t.apu.mix_of_disabled s.cfg hdisabled)
    · exact ih hdisabled hes v hlater

/-- Settles O44. -/
theorem disabledBlockIsSilent : Obligations.DisabledBlockIsSilent := by
  unfold Obligations.DisabledBlockIsSilent
  intro s t es hexec hes
  obtain rfl := Host.Outcome.next.inj hexec
  exact samplesOf_of_disabled es rfl hes

/-! ### Enable before load (R147) -/

/-- Settles O56. A load while disabled is no load, and the status write that enables does not load; once enabled,
the load takes the table's entry. -/
theorem enableBeforeLengthLoad : Obligations.EnableBeforeLengthLoad := by
  unfold Obligations.EnableBeforeLengthLoad
  intro s x h b1 b2 bt bn bd
  have htable : ∀ x : BitVec 5, Config.ntsc.lengthTable.get x.toFin ≠ 0 := by decide
  refine ⟨fun hoff hzero => ⟨_, execList_pair (exec_wrP1Hi s x h), ?p1⟩,
    fun hoff hzero => ⟨_, execList_pair (exec_wrP2Hi s x h), ?p2⟩,
    fun hoff hzero => ⟨_, execList_pair (exec_wrTriHi s x h), ?tri⟩,
    fun hoff hzero => ⟨_, execList_pair (exec_wrNoiLen s x), ?noise⟩,
    ⟨_, execList_pair (exec_wrStatus s true b2 bt bn bd), rfl⟩,
    ⟨_, execList_pair (exec_wrStatus s b1 true bt bn bd), rfl⟩,
    ⟨_, execList_pair (exec_wrStatus s b1 b2 true bn bd), rfl⟩,
    ⟨_, execList_pair (exec_wrStatus s b1 b2 bt true bd), rfl⟩, htable x⟩
  case p1 => rw [hoff]; exact hzero
  case p2 => rw [hoff]; exact hzero
  case tri => rw [hoff]; exact hzero
  case noise => rw [hoff]; exact hzero

end Sys2Proof
end

section
/-! PROOFS. One sequence of the frame sequencer, from its start to its end, in both modes: the count, the
interrupt (R117, R120 (a)) and the ticks (R120 (b)). -/

namespace Sys2Proof

open Sys2Proof.Machine

/-! ### The count over a sequence -/

/-- The count at which a mode's sequence ends. -/
def Cfg.sequenceEnd (c : Cfg) : FrameMode → Nat
  | .fourStep => c.fsD
  | .fiveStep => c.fsE

section
variable {c : Cfg} (hwf : c.Wf)
include hwf

theorem Cfg.Wf.sequenceEnd_lt (m : FrameMode) : 0 < c.sequenceEnd m ∧ c.sequenceEnd m < 2 ^ 16 := by
  have hrise := hwf.offsets
  cases m
  case fourStep => exact ⟨show 0 < c.fsD by omega, show c.fsD < 2 ^ 16 by omega⟩
  case fiveStep => exact ⟨show 0 < c.fsE by omega, show c.fsE < 2 ^ 16 by omega⟩

/-- Short of the end, a clock does no more to the sequencer than count. -/
theorem Machine.clock_frame_of_lt {s : State}
    (h : s.apu.frame.cycleCounter.toNat + 1 < c.sequenceEnd s.apu.frame.mode) :
    (clock c s).apu.frame = { s.apu.frame with cycleCounter := s.apu.frame.cycleCounter + 1 } := by
  have hend := (hwf.sequenceEnd_lt s.apu.frame.mode).2
  have hne : (s.apu.frame.cycleCounter + 1).toNat ≠ c.sequenceEnd s.apu.frame.mode := by bv_omega
  rw [clock_frame]
  cases hmode : s.apu.frame.mode <;> rw [hmode] at hne
  case fourStep => rw [Apu.fsClock_frame_of_fourStep hwf _ hmode]; exact if_neg hne
  case fiveStep => rw [Apu.fsClock_frame_of_fiveStep hwf _ hmode]; exact if_neg hne

theorem Machine.times_clock_frame {s : State} (hstart : s.apu.frame.cycleCounter = 0) {n : Nat}
    (hn : n < c.sequenceEnd s.apu.frame.mode) :
    (times (clock c) n s).apu.frame = { s.apu.frame with cycleCounter := BitVec.ofNat 16 n } := by
  induction n with
  | zero => rw [show BitVec.ofNat 16 0 = s.apu.frame.cycleCounter from hstart.symm]; rfl
  | succ n ih =>
    have hend := (hwf.sequenceEnd_lt s.apu.frame.mode).2
    have hframe := ih (by omega)
    have hcount : (BitVec.ofNat 16 n).toNat = n := Nat.mod_eq_of_lt (by omega)
    have hnext : BitVec.ofNat 16 n + 1 = BitVec.ofNat 16 (n + 1) := by bv_omega
    rw [times_succ, clock_frame_of_lt hwf (by rw [hframe]; simpa only [hcount] using hn), hframe]
    simp only [hnext]

/-- The count a clock of the sequence reaches. -/
theorem Machine.times_clock_count {s : State} (hstart : s.apu.frame.cycleCounter = 0) {n : Nat}
    (hn : n < c.sequenceEnd s.apu.frame.mode) :
    ((times (clock c) n s).apu.frame.cycleCounter + 1).toNat = n + 1 := by
  have hend := (hwf.sequenceEnd_lt s.apu.frame.mode).2
  rw [times_clock_frame hwf hstart hn]
  change (BitVec.ofNat 16 n + 1).toNat = n + 1
  bv_omega

/-- The clock that reaches `FS_D` in 4-step mode ends the sequence. -/
theorem Machine.times_clock_frame_end {s : State} (hmode : s.apu.frame.mode = .fourStep)
    (hstart : s.apu.frame.cycleCounter = 0) :
    (times (clock c) c.fsD s).apu.frame = s.apu.frame.endFourStep := by
  have hrise := hwf.offsets
  obtain ⟨n, hn⟩ : ∃ n, c.fsD = n + 1 := ⟨c.fsD - 1, by omega⟩
  have hlt : n < c.sequenceEnd s.apu.frame.mode := by rw [hmode]; exact show n < c.fsD by omega
  have hframe := times_clock_frame hwf hstart hlt
  have hcount := times_clock_count hwf hstart hlt
  rw [hn, times_succ, clock_frame, Apu.fsClock_frame_of_fourStep hwf _ (by rw [hframe]; exact hmode), hcount,
    if_pos hn.symm, Apu.counted, Apu.withFrame_frame, hframe]
  rfl

end

/-- In 5-step mode a clock leaves the mode and the flag. -/
theorem Machine.clock_irqFlag_of_fiveStep (c : Cfg) {s : State} (hmode : s.apu.frame.mode = .fiveStep) :
    (clock c s).apu.frame.mode = .fiveStep ∧ (clock c s).apu.frame.irqFlag = s.apu.frame.irqFlag := by
  rw [clock_frame]
  refine ⟨(s.apu.fsClock_mode c).trans hmode, ?_⟩
  obtain hsame | ⟨hfour, -⟩ := fsClock_irqFlag c s.apu
  · exact hsame
  · rw [hmode] at hfour; cases hfour

/-- Settles O50. -/
theorem frameInterruptOncePerSequence : Obligations.FrameInterruptOncePerSequence := by
  unfold Obligations.FrameInterruptOncePerSequence
  constructor
  · intro s hwf hmode hstart
    refine ⟨fun n hn => ⟨_, clocks_eq s n, ?_⟩, _, clocks_eq s _, ?_⟩
    · have hend : n < s.cfg.sequenceEnd s.apu.frame.mode := by rw [hmode]; exact hn
      have hfits := (hwf.sequenceEnd_lt s.apu.frame.mode).2
      rw [times_clock_frame hwf hstart hend]
      exact ⟨Nat.mod_eq_of_lt (by omega), rfl⟩
    · rw [times_clock_frame_end hwf hmode hstart]
      exact ⟨rfl, rfl⟩
  · intro s n hmode
    have hrun := times_induction (P := fun t : State => t.apu.frame.mode = .fiveStep
      ∧ t.apu.frame.irqFlag = s.apu.frame.irqFlag)
      (fun t ht => ⟨(clock_irqFlag_of_fiveStep s.cfg ht.1).1, (clock_irqFlag_of_fiveStep s.cfg ht.1).2.trans ht.2⟩)
      n ⟨hmode, rfl⟩
    exact ⟨_, clocks_eq s n, hrun.2⟩

/-! ### The ticks of a sequence -/

/-- The counts at which a mode's sequence has a quarter-frame tick. -/
def Cfg.quarterCounts (c : Cfg) : FrameMode → List Nat
  | .fourStep => [c.fsA, c.fsB, c.fsC, c.fsD]
  | .fiveStep => [c.fsA, c.fsB, c.fsC, c.fsD, c.fsE]

/-- The counts at which a mode's sequence has a half-frame tick. -/
def Cfg.halfCounts (c : Cfg) : FrameMode → List Nat
  | .fourStep => [c.fsB, c.fsD]
  | .fiveStep => [c.fsB, c.fsE]

theorem countP_le_succ {l : List Nat} (h : l.Nodup) (n : Nat) :
    l.countP (· ≤ n + 1) = l.countP (· ≤ n) + if n + 1 ∈ l then 1 else 0 := by
  induction l with
  | nil => rfl
  | cons x l ih =>
    obtain ⟨hx, hl⟩ := List.nodup_cons.1 h
    rw [List.countP_cons, List.countP_cons, ih hl]
    rcases eq_or_ne x (n + 1) with rfl | hne
    · simp [hx]
    · have hle : x ≤ n + 1 ↔ x ≤ n := by omega
      simp only [List.mem_cons, hne.symm, false_or, hle]
      omega

/-- A part that steps on the clocks of a list, counted from 1, has stepped once for each of them that has passed. -/
theorem times_clock_of_counts {c : Cfg} {s : State} {β : Type} {part : State → β} {tick : β → β} {l : List Nat}
    (hnodup : l.Nodup) (hpos : ∀ x ∈ l, 0 < x) {n : Nat}
    (hstep : ∀ k < n, part (clock c (times (clock c) k s))
      = if k + 1 ∈ l then tick (part (times (clock c) k s)) else part (times (clock c) k s)) :
    part (times (clock c) n s) = times tick (l.countP (· ≤ n)) (part s) := by
  induction n with
  | zero =>
    have hnone : l.countP (· ≤ 0) = 0 := List.countP_eq_zero.2 fun x hx => by simpa using (hpos x hx).ne'
    rw [hnone]
    rfl
  | succ n ih =>
    rw [times_succ, hstep n (Nat.lt_succ_self n), ih fun k hk => hstep k (by omega), countP_le_succ hnodup]
    split
    case isTrue => rw [times_succ]
    case isFalse => rfl

section
variable {c : Cfg} (hwf : c.Wf) (a : Apu)
include hwf

/-- The unit's envelope is clocked by every tick of the sequence, its length counter by the half-frame ticks. -/
theorem Machine.Apu.fourStepAt_p1_ticks (n : Nat) :
    (a.fourStepAt c n).p1.env = (if n ∈ c.quarterCounts .fourStep then a.p1.env.clock else a.p1.env)
    ∧ (a.fourStepAt c n).p1.length
      = (if n ∈ c.halfCounts .fourStep then a.p1.length.clock else a.p1.length) := by
  have hquarters : n ∈ c.quarterCounts .fourStep ↔ n = c.fsA ∨ n = c.fsB ∨ n = c.fsC ∨ n = c.fsD := by
    simp [Cfg.quarterCounts]
  have hhalves : n ∈ c.halfCounts .fourStep ↔ n = c.fsB ∨ n = c.fsD := by simp [Cfg.halfCounts]
  rw [if_congr hquarters rfl rfl, if_congr hhalves rfl rfl]
  by_cases hhalf : n = c.fsB ∨ n = c.fsD
  case pos =>
    rw [if_pos hhalf]
    obtain hB | hD := hhalf
    · rw [if_pos (.inr (.inl hB)), Apu.fourStepAt_half a hwf hB]; exact ⟨rfl, rfl⟩
    · rw [if_pos (.inr (.inr (.inr hD))), Apu.fourStepAt_end a hwf hD]; exact ⟨rfl, rfl⟩
  case neg =>
    rw [if_neg hhalf]
    obtain ⟨hB, hD⟩ := not_or.1 hhalf
    by_cases hquarter : n = c.fsA ∨ n = c.fsC
    case pos =>
      rw [if_pos (hquarter.imp_right fun hC => .inr (.inl hC)), Apu.fourStepAt_quarter a hwf hquarter]
      exact ⟨rfl, rfl⟩
    case neg =>
      obtain ⟨hA, hC⟩ := not_or.1 hquarter
      rw [if_neg (by simp [hA, hB, hC, hD]), Apu.fourStepAt_of_ne a hA hB hC hD]
      exact ⟨rfl, rfl⟩

theorem Machine.Apu.fiveStepAt_p1_ticks (n : Nat) :
    (a.fiveStepAt c n).p1.env = (if n ∈ c.quarterCounts .fiveStep then a.p1.env.clock else a.p1.env)
    ∧ (a.fiveStepAt c n).p1.length
      = (if n ∈ c.halfCounts .fiveStep then a.p1.length.clock else a.p1.length) := by
  have hquarters : n ∈ c.quarterCounts .fiveStep
      ↔ n = c.fsA ∨ n = c.fsB ∨ n = c.fsC ∨ n = c.fsD ∨ n = c.fsE := by
    simp [Cfg.quarterCounts]
  have hhalves : n ∈ c.halfCounts .fiveStep ↔ n = c.fsB ∨ n = c.fsE := by simp [Cfg.halfCounts]
  rw [if_congr hquarters rfl rfl, if_congr hhalves rfl rfl]
  by_cases hhalf : n = c.fsB ∨ n = c.fsE
  case pos =>
    rw [if_pos hhalf]
    obtain hB | hE := hhalf
    · rw [if_pos (.inr (.inl hB)), Apu.fiveStepAt_half a hwf hB]; exact ⟨rfl, rfl⟩
    · rw [if_pos (.inr (.inr (.inr (.inr hE)))), Apu.fiveStepAt_end a hwf hE]; exact ⟨rfl, rfl⟩
  case neg =>
    rw [if_neg hhalf]
    obtain ⟨hB, hE⟩ := not_or.1 hhalf
    by_cases hquarter : n = c.fsA ∨ n = c.fsC ∨ n = c.fsD
    case pos =>
      rw [if_pos (hquarter.imp_right fun hCD => .inr (hCD.imp_right .inl)), Apu.fiveStepAt_quarter a hwf hquarter]
      exact ⟨rfl, rfl⟩
    case neg =>
      obtain ⟨hA, hCD⟩ := not_or.1 hquarter
      obtain ⟨hC, hD⟩ := not_or.1 hCD
      rw [if_neg (by simp [hA, hB, hC, hD, hE]), Apu.fiveStepAt_of_ne a hA hB hC hD hE]
      exact ⟨rfl, rfl⟩

theorem Machine.Apu.fsClock_p1_ticks :
    (a.fsClock c).p1.env
      = (if (a.frame.cycleCounter + 1).toNat ∈ c.quarterCounts a.frame.mode then a.p1.env.clock else a.p1.env)
    ∧ (a.fsClock c).p1.length
      = (if (a.frame.cycleCounter + 1).toNat ∈ c.halfCounts a.frame.mode then a.p1.length.clock
        else a.p1.length) := by
  cases hmode : a.frame.mode
  case fourStep => rw [Apu.fsClock_of_fourStep c hmode]; exact fourStepAt_p1_ticks hwf a.counted _
  case fiveStep => rw [Apu.fsClock_of_fiveStep c hmode]; exact fiveStepAt_p1_ticks hwf a.counted _

/-- The ticks of a sequence come at different counts, none before the first clock or after the last. -/
theorem Cfg.Wf.quarterCounts_ok (m : FrameMode) : (c.quarterCounts m).Nodup
    ∧ ∀ x ∈ c.quarterCounts m, 0 < x ∧ x ≤ c.sequenceEnd m := by
  have hrise := hwf.offsets
  cases m <;> simp [Cfg.quarterCounts, Cfg.sequenceEnd] <;> omega

theorem Cfg.Wf.halfCounts_ok (m : FrameMode) : (c.halfCounts m).Nodup
    ∧ ∀ x ∈ c.halfCounts m, 0 < x ∧ x ≤ c.sequenceEnd m := by
  have hrise := hwf.offsets
  cases m <;> simp [Cfg.halfCounts, Cfg.sequenceEnd] <;> omega

/-- A part that steps at given counts of the sequence has stepped, at its end, as often as there are counts. -/
theorem Machine.times_clock_sequence {s : State} (hstart : s.apu.frame.cycleCounter = 0) {β : Type} {part : Apu → β}
    {tick : β → β} {counts : FrameMode → List Nat} (hcounts : (counts s.apu.frame.mode).Nodup
      ∧ ∀ x ∈ counts s.apu.frame.mode, 0 < x ∧ x ≤ c.sequenceEnd s.apu.frame.mode)
    (hclock : ∀ t : State, part (clock c t).apu
      = if (t.apu.frame.cycleCounter + 1).toNat ∈ counts t.apu.frame.mode then tick (part t.apu) else part t.apu) :
    part (times (clock c) (c.sequenceEnd s.apu.frame.mode) s).apu
      = times tick (counts s.apu.frame.mode).length (part s.apu) := by
  obtain ⟨hnodup, hwithin⟩ := hcounts
  have hall : (counts s.apu.frame.mode).countP (· ≤ c.sequenceEnd s.apu.frame.mode)
      = (counts s.apu.frame.mode).length :=
    List.countP_eq_length.2 fun x hx => by simpa using (hwithin x hx).2
  rw [← hall]
  refine times_clock_of_counts (part := fun t : State => part t.apu) hnodup (fun x hx => (hwithin x hx).1)
    fun k hk => ?_
  rw [hclock, times_clock_count hwf hstart hk, times_clock_frame hwf hstart hk]

theorem Machine.times_clock_sequence_p1 {s : State} (hstart : s.apu.frame.cycleCounter = 0) :
    (times (clock c) (c.sequenceEnd s.apu.frame.mode) s).apu.p1.env
      = times Envelope.clock (c.quarterCounts s.apu.frame.mode).length s.apu.p1.env
    ∧ (times (clock c) (c.sequenceEnd s.apu.frame.mode) s).apu.p1.length
      = times LengthCounter.clock (c.halfCounts s.apu.frame.mode).length s.apu.p1.length := by
  constructor
  · refine times_clock_sequence hwf hstart (part := fun a => a.p1.env) (hwf.quarterCounts_ok _) fun t => ?_
    rw [← (Apu.fsClock_p1_ticks hwf t.apu).1, clock_p1]
    split <;> rfl
  · refine times_clock_sequence hwf hstart (part := fun a => a.p1.length) (hwf.halfCounts_ok _) fun t => ?_
    rw [← (Apu.fsClock_p1_ticks hwf t.apu).2, clock_p1_length]

end

/-- Settles O51. -/
theorem ticksPerSequence : Obligations.TicksPerSequence := by
  unfold Obligations.TicksPerSequence
  intro s hwf hstart
  have hticks := times_clock_sequence_p1 hwf hstart
  refine ⟨fun hmode => ⟨_, clocks_eq s _, ?_⟩, fun hmode => ⟨_, clocks_eq s _, ?_⟩⟩
  · rw [hmode] at hticks; exact hticks
  · rw [hmode] at hticks; exact hticks

end Sys2Proof
end

section
/-! PROOFS. Runs of clocks: the pulse waveform (R90) and the held triangle (R96). -/

namespace Sys2Proof

open Sys2Proof.Machine

/-! ### The pulse waveform

Two clocks are one timer clock of a pulse unit. Of a unit whose sweep is disabled the counter and the duty
index make a clock of their own, of the unit's period. -/

/-- A timer of period `period` and the duty index it steps down. -/
def waveTick (period : BitVec 11) (w : BitVec 11 × BitVec 3) : BitVec 11 × BitVec 3 :=
  if w.1 = 0 then (period, w.2 - 1) else (w.1 - 1, w.2)

/-- The counter runs down, and the tick that finds it at zero reloads it. -/
theorem times_waveTick_count (period k : BitVec 11) (d : BitVec 3) {n : Nat} (h : n ≤ k.toNat) :
    times (waveTick period) n (k, d) = (BitVec.ofNat 11 (k.toNat - n), d) := by
  induction n with
  | zero => simp [times]
  | succ n ih =>
    have hne : BitVec.ofNat 11 (k.toNat - n) ≠ 0 := by bv_omega
    have hcount : BitVec.ofNat 11 (k.toNat - n) - 1 = BitVec.ofNat 11 (k.toNat - (n + 1)) := by bv_omega
    rw [times_succ, ih (by omega), waveTick, if_neg hne, hcount]

theorem times_waveTick_step (period k : BitVec 11) (d : BitVec 3) :
    times (waveTick period) (k.toNat + 1) (k, d) = (period, d - 1) := by
  have hzero : BitVec.ofNat 11 (k.toNat - k.toNat) = 0 := by rw [Nat.sub_self]; rfl
  rw [times_succ, times_waveTick_count period k d le_rfl, hzero]
  rfl

/-- From a counter within the period, one period of ticks is one step of the duty index. -/
theorem times_waveTick_period {period k : BitVec 11} (h : k.toNat ≤ period.toNat) (d : BitVec 3) :
    times (waveTick period) (period.toNat + 1) (k, d) = (k, d - 1) := by
  have hsplit : period.toNat + 1 = k.toNat + 1 + (period.toNat - k.toNat) := by omega
  have hrest : BitVec.ofNat 11 (period.toNat - (period.toNat - k.toNat)) = k := by bv_omega
  rw [hsplit, times_add, times_waveTick_step, times_waveTick_count period period _ (Nat.sub_le _ _), hrest]

/-- The duty index has eight places. -/
theorem times_waveTick_eight_periods {period k : BitVec 11} (h : k.toNat ≤ period.toNat) (d : BitVec 3) :
    times (waveTick period) (8 * (period.toNat + 1)) (k, d) = (k, d) := by
  have hsteps (q : Nat) : times (waveTick period) (q * (period.toNat + 1)) (k, d) = (k, d - BitVec.ofNat 3 q) := by
    induction q with
    | zero => rw [Nat.zero_mul, BitVec.sub_zero]; rfl
    | succ q ih =>
      have hindex : d - BitVec.ofNat 3 q - 1 = d - BitVec.ofNat 3 (q + 1) := by bv_omega
      rw [Nat.succ_mul, times_add, ih, times_waveTick_period h, hindex]
  rw [hsteps]
  exact congrArg (k, ·) (BitVec.sub_zero d)

/-- The timer of a pulse unit and the duty index it steps. -/
def Machine.Pulse.wave (p : Pulse) : BitVec 11 × BitVec 3 := (p.timerCounter, p.dutyIndex)

theorem Machine.Pulse.timerTick_wave (p : Pulse) : p.timerTick.wave = waveTick p.timerPeriod p.wave := by
  by_cases h : p.timerCounter = 0
  case pos => rw [Pulse.timerTick_of_zero h]; exact (if_pos h).symm
  case neg => rw [Pulse.timerTick_of_ne h]; exact (if_neg h).symm

section
variable (c : Cfg) (a : Apu) (u : PulseUnit)

/-- What a sequencer clock can do to a unit. -/
theorem Machine.Apu.fsClock_pulse_cases : (a.fsClock c).pulse u = a.pulse u
    ∨ (a.fsClock c).pulse u = (a.pulse u).quarterFrame
    ∨ (a.fsClock c).pulse u = (a.pulse u).quarterFrame.halfFrame u := by
  rcases a.fsClock_cases c with h | h | h | ⟨_, _, h⟩ | ⟨_, _, h⟩ <;> rw [h] <;> cases u
  exacts [.inl rfl, .inl rfl, .inr (.inl rfl), .inr (.inl rfl), .inr (.inr rfl), .inr (.inr rfl), .inr (.inr rfl),
    .inr (.inr rfl), .inr (.inr rfl), .inr (.inr rfl)]

theorem Machine.Apu.fsClock_pulse_wave : ((a.fsClock c).pulse u).wave = (a.pulse u).wave := by
  rcases a.fsClock_pulse_cases c u with h | h | h <;> rw [h] <;> rfl

/-- A disabled sweep leaves the period through every frame tick, and stays disabled. -/
theorem Machine.Apu.fsClock_pulse_of_disabled (hoff : (a.pulse u).sweep.enabled = false) :
    ((a.fsClock c).pulse u).sweep.enabled = false
    ∧ ((a.fsClock c).pulse u).timerPeriod = (a.pulse u).timerPeriod := by
  rcases a.fsClock_pulse_cases c u with h | h | h <;> rw [h]
  · exact ⟨hoff, rfl⟩
  · exact ⟨hoff, rfl⟩
  · exact ⟨(Sweep.clockDivider_enabled _).trans hoff,
      Pulse.sweptPeriod_of_idle u (p := (a.pulse u).quarterFrame) (.inl hoff)⟩

end

/-- A unit at an even clock with its sweep disabled and a period. -/
structure Machine.Apu.Sounding (period : BitVec 11) (u : PulseUnit) (a : Apu) : Prop where
  even : a.phase = false
  disabled : (a.pulse u).sweep.enabled = false
  timerPeriod : (a.pulse u).timerPeriod = period

section
variable {c : Cfg} {s : State} {u : PulseUnit} {period : BitVec 11} (h : s.apu.Sounding period u)
include h

/-- An even and an odd clock are one timer clock. -/
theorem Machine.two_clocks_of_sounding : (clock c (clock c s)).apu.Sounding period u
    ∧ ((clock c (clock c s)).apu.pulse u).wave = waveTick period (s.apu.pulse u).wave := by
  obtain ⟨heven, hdisabled, hperiod⟩ := h
  have hodd : ¬ (clock c s).apu.phase = false := by simp [heven]
  obtain ⟨hdisabled', hperiod'⟩ := s.apu.fsClock_pulse_of_disabled c u hdisabled
  have hfirst : (clock c s).apu.pulse u = ((s.apu.fsClock c).pulse u).timerTick := by rw [clock_pulse, if_pos heven]
  have hsecond : (clock c (clock c s)).apu.pulse u = ((clock c s).apu.fsClock c).pulse u := by
    rw [clock_pulse, if_neg hodd]
  obtain ⟨hdisabled'', hperiod''⟩ := (clock c s).apu.fsClock_pulse_of_disabled c u (by rw [hfirst]; exact hdisabled')
  refine ⟨⟨by simp [heven], by rw [hsecond, hdisabled''], ?_⟩, ?_⟩
  · rw [hsecond, hperiod'', hfirst, Pulse.timerTick_timerPeriod, hperiod', hperiod]
  · rw [hsecond, Apu.fsClock_pulse_wave, hfirst, Pulse.timerTick_wave, hperiod', hperiod, Apu.fsClock_pulse_wave]

theorem Machine.times_two_clocks_of_sounding (n : Nat) : (times (clock c) (2 * n) s).apu.Sounding period u
    ∧ ((times (clock c) (2 * n) s).apu.pulse u).wave = times (waveTick period) n (s.apu.pulse u).wave := by
  induction n with
  | zero => exact ⟨h, rfl⟩
  | succ n ih =>
    obtain ⟨hsounding, hwave⟩ := ih
    obtain ⟨hnext, htick⟩ := two_clocks_of_sounding (c := c) hsounding
    rw [Nat.mul_succ, times_add]
    exact ⟨hnext, htick.trans (by rw [hwave, times_succ])⟩

end

/-- Settles O52. -/
theorem pulseWaveformPeriod : Obligations.PulseWaveformPeriod := by
  unfold Obligations.PulseWaveformPeriod
  intro s f hf heven hdisabled
  obtain ⟨u, rfl⟩ : ∃ u, f = Apu.pulse u := by
    simp only [List.mem_cons, List.not_mem_nil, or_false] at hf
    obtain rfl | rfl := hf
    exacts [⟨.unit1, rfl⟩, ⟨.unit2, rfl⟩]
  have hrun := times_two_clocks_of_sounding (c := s.cfg) (u := u) ⟨heven, hdisabled, rfl⟩
  refine ⟨?_, fun hwithin => ⟨?_, ?_⟩⟩
  · obtain ⟨hsounding, hwave⟩ := hrun ((s.apu.pulse u).timerCounter.toNat + 1)
    obtain ⟨hcounter, hindex⟩ := Prod.mk.inj (hwave.trans (times_waveTick_step _ _ _))
    exact ⟨_, clocks_eq s _, hindex, hcounter, hsounding.timerPeriod⟩
  · obtain ⟨-, hwave⟩ := hrun ((s.apu.pulse u).timerPeriod.toNat + 1)
    obtain ⟨hcounter, hindex⟩ := Prod.mk.inj (hwave.trans (times_waveTick_period hwithin _))
    exact ⟨_, clocks_eq s _, hindex, hcounter⟩
  · obtain ⟨hsounding, hwave⟩ := hrun (8 * ((s.apu.pulse u).timerPeriod.toNat + 1))
    obtain ⟨hcounter, hindex⟩ := Prod.mk.inj (hwave.trans (times_waveTick_eight_periods hwithin _))
    rw [← Nat.mul_assoc] at hsounding hcounter hindex
    exact ⟨_, clocks_eq s _, hindex, hcounter, hsounding.timerPeriod⟩

/-! ### The held triangle -/

/-- With its length counter at zero a clock leaves the sequencer and the counter. -/
theorem Machine.clock_tri_of_length_zero (c : Cfg) {s : State} (h : s.apu.tri.length.value = 0) :
    (clock c s).apu.tri.sequenceIndex = s.apu.tri.sequenceIndex ∧ (clock c s).apu.tri.length.value = 0 := by
  have hlength : (s.apu.fsClock c).tri.length.value = 0 := by
    obtain ⟨-, -, e, -⟩ | ⟨-, -, e, -⟩ := s.apu.fsClock_length_cases c <;> rw [e]
    · exact h
    · rw [LengthCounter.clock_of_zero h]; exact h
  refine ⟨?_, by rw [clock_tri_length]; exact hlength⟩
  rw [clock_tri, ← Apu.fsClock_tri_sequenceIndex c]
  split
  case isTrue => simp [Triangle.timerTick, hlength]
  case isFalse => rfl

/-- Settles O53. -/
theorem triangleHeldWhileLengthZero : Obligations.TriangleHeldWhileLengthZero := by
  unfold Obligations.TriangleHeldWhileLengthZero
  intro s n hzero
  refine ⟨_, clocks_eq s n, times_induction (P := fun t : State => t.apu.tri.sequenceIndex = s.apu.tri.sequenceIndex
    ∧ t.apu.tri.length.value = 0) ?_ n ⟨rfl, hzero⟩⟩
  rintro t ⟨hindex, hlength⟩
  obtain ⟨hindex', hlength'⟩ := clock_tri_of_length_zero s.cfg hlength
  exact ⟨hindex'.trans hindex, hlength'⟩

end Sys2Proof
end

section
/-! PROOFS. Runs of clocks: the sample rate (R124) and the idle DMC (R110 to R112). -/

namespace Sys2Proof

open Sys2Proof.Machine

/-! ### The sample rate -/

/-- One clock adds the sample rate to what has been emitted and accumulated. -/
theorem Machine.clock_sample_balance {c : Cfg} (hwf : c.Wf) {s : State} (hacc : s.apu.sampleAcc.toNat < c.clockRate) :
    (clock c s).out.sample.toList.length * c.clockRate + (clock c s).apu.sampleAcc.toNat
      = s.apu.sampleAcc.toNat + c.sampleRate ∧ (clock c s).apu.sampleAcc.toNat < c.clockRate := by
  obtain ⟨hsum, hbound⟩ := sampleStep_toNat hwf _ hacc
  rw [clock_sample, clock_sampleAcc]
  refine ⟨?_, hbound⟩
  rw [← hsum]
  split <;> simp [Nat.add_comm]

theorem samples_balance (n : Nat) {s : State} (hwf : s.cfg.Wf) (hacc : s.apu.sampleAcc.toNat < s.cfg.clockRate) :
    (samplesOf (List.replicate n .clk) s).length * s.cfg.clockRate + (times (clock s.cfg) n s).apu.sampleAcc.toNat
      = s.apu.sampleAcc.toNat + n * s.cfg.sampleRate
    ∧ (times (clock s.cfg) n s).apu.sampleAcc.toNat < s.cfg.clockRate := by
  induction n generalizing s with
  | zero => exact ⟨by simp [samplesOf, times], hacc⟩
  | succ n ih =>
    obtain ⟨hnow, hbound⟩ := clock_sample_balance hwf hacc
    have hlater := ih (s := clock s.cfg s) (by rwa [clock_cfg]) (by rwa [clock_cfg])
    rw [clock_cfg] at hlater
    rw [samplesOf_clocks_succ, List.length_append, Nat.add_mul, Nat.succ_mul, times]
    omega

/-- Settles O54. -/
theorem sampleRateIsExact : Obligations.SampleRateIsExact := by
  unfold Obligations.SampleRateIsExact
  intro s hwf hacc
  refine ⟨fun n => ⟨_, clocks_eq s n, (samples_balance n hwf hacc).1⟩, ?_⟩
  obtain ⟨hsum, hbound⟩ := samples_balance s.cfg.clockRate hwf hacc
  have hpos : 0 < s.cfg.clockRate := (Nat.zero_le _).trans_lt hacc
  -- Both sides are a multiple of the clock rate and a rest below it.
  have hquotient := congrArg (· / s.cfg.clockRate) hsum
  simpa only [Nat.mul_comm _ s.cfg.clockRate, Nat.mul_add_div hpos, Nat.add_mul_div_left _ _ hpos,
    Nat.div_eq_of_lt hbound, Nat.div_eq_of_lt hacc, Nat.add_zero, Nat.zero_add] using hquotient

/-! ### The idle DMC

It has nothing to play and does not loop, so it plays the bits it holds and falls silent; once silent it
stays so, and its level stands. -/

/-- Nothing is left to play, and nothing starts again. -/
def Machine.Dmc.Idle (d : Dmc) : Prop := d.bytesRemaining = 0 ∧ d.loopFlag = false

/-- The clocks until an idle DMC has played the bits it holds and found no more. -/
def Machine.Dmc.clocksToSilence (c : Cfg) (d : Dmc) : Nat :=
  d.timerCounter.toNat + 1 + d.bitsRemaining.toNat * c.dmcRate.get d.rateIndex.toFin

/-- All an idle DMC's clock can do. -/
theorem Machine.clock_dmc_of_idle (c : Cfg) {s : State} (h : s.apu.dmc.Idle) :
    (s.apu.dmc.timerCounter ≠ 0
      ∧ (clock c s).apu.dmc = { s.apu.dmc with timerCounter := s.apu.dmc.timerCounter - 1 })
    ∨ (s.apu.dmc.timerCounter = 0 ∧ s.apu.dmc.bitsRemaining ≠ 0
      ∧ (clock c s).apu.dmc = (s.apu.dmc.reloaded c).outputStep)
    ∨ (s.apu.dmc.timerCounter = 0 ∧ s.apu.dmc.bitsRemaining = 0
      ∧ (clock c s).apu.dmc = (s.apu.dmc.reloaded c).starve) := by
  obtain ⟨hbytes, hloop⟩ := h
  have hno : s.apu.dmc.loopRestart s.apu.chanEnable.dmc = s.apu.dmc := if_neg (by simp [hloop])
  rw [clock_dmc]
  rcases dmcTimerClock_cases c s with ⟨hne, e, -⟩ | ⟨hzero, hbits, e, -⟩ | ⟨hzero, hbits, -, e, -⟩ | ⟨-, -, hfetch, -⟩
  · exact .inl ⟨hne, e⟩
  · exact .inr (.inl ⟨hzero, hbits, e⟩)
  · rw [hno] at e; exact .inr (.inr ⟨hzero, hbits, e⟩)
  · rw [hno] at hfetch; exact absurd hbytes hfetch

theorem Machine.clock_dmc_idle (c : Cfg) {s : State} (h : s.apu.dmc.Idle) : (clock c s).apu.dmc.Idle := by
  rcases clock_dmc_of_idle c h with ⟨-, e⟩ | ⟨-, -, e⟩ | ⟨-, -, e⟩ <;> rw [e]
  · exact h
  · rwa [Dmc.Idle, Dmc.outputStep_bytesRemaining, Dmc.outputStep_loopFlag]
  · exact h

/-- Silence lasts, and the level with it. -/
theorem Machine.clock_dmc_of_silent (c : Cfg) {s : State} (h : s.apu.dmc.Idle) (hsilent : s.apu.dmc.silenceFlag = true) :
    (clock c s).apu.dmc.silenceFlag = true ∧ (clock c s).apu.dmc.outputLevel = s.apu.dmc.outputLevel := by
  rcases clock_dmc_of_idle c h with ⟨-, e⟩ | ⟨-, -, e⟩ | ⟨-, -, e⟩ <;> rw [e]
  · exact ⟨hsilent, rfl⟩
  · rw [Dmc.outputStep_of_silent (d := s.apu.dmc.reloaded c) hsilent]; exact ⟨hsilent, rfl⟩
  · exact ⟨rfl, rfl⟩

theorem Machine.times_clock_of_silent (c : Cfg) {s : State} (h : s.apu.dmc.Idle)
    (hsilent : s.apu.dmc.silenceFlag = true) (n : Nat) : (times (clock c) n s).apu.dmc.silenceFlag = true
    ∧ (times (clock c) n s).apu.dmc.outputLevel = s.apu.dmc.outputLevel := by
  refine (times_induction (P := fun t : State => t.apu.dmc.Idle ∧ t.apu.dmc.silenceFlag = true
    ∧ t.apu.dmc.outputLevel = s.apu.dmc.outputLevel) ?_ n ⟨h, hsilent, rfl⟩).2
  rintro t ⟨hidle, hsilent, hlevel⟩
  obtain ⟨hsilent', hlevel'⟩ := clock_dmc_of_silent c hidle hsilent
  exact ⟨clock_dmc_idle c hidle, hsilent', hlevel'.trans hlevel⟩

/-- A clock brings silence, or brings it one clock nearer. -/
theorem Machine.clock_dmc_clocksToSilence {c : Cfg} (hwf : c.Wf) {s : State} (h : s.apu.dmc.Idle) :
    (clock c s).apu.dmc.silenceFlag = true
    ∨ (clock c s).apu.dmc.clocksToSilence c + 1 = s.apu.dmc.clocksToSilence c := by
  rcases clock_dmc_of_idle c h with ⟨hne, e⟩ | ⟨hzero, hbits, e⟩ | ⟨-, -, e⟩ <;> rw [e]
  · have hcount : (s.apu.dmc.timerCounter - 1).toNat + 1 = s.apu.dmc.timerCounter.toNat := by bv_omega
    right
    simp only [Dmc.clocksToSilence]
    omega
  · cases hsilent : s.apu.dmc.silenceFlag
    case true => left; rw [Dmc.outputStep_of_silent (d := s.apu.dmc.reloaded c) hsilent]; exact hsilent
    case false =>
      have hreload := hwf.dmcReload_toNat s.apu.dmc.rateIndex
      obtain ⟨b, hb⟩ : ∃ b, s.apu.dmc.bitsRemaining.toNat = b + 1 := ⟨s.apu.dmc.bitsRemaining.toNat - 1, by bv_omega⟩
      have hbit : (s.apu.dmc.bitsRemaining - 1).toNat = b := by bv_omega
      right
      rw [Dmc.outputStep_of_sounding (d := s.apu.dmc.reloaded c) hsilent]
      simp only [Dmc.clocksToSilence, Dmc.reloaded, hbit, hb, hzero, hreload, Nat.succ_mul]
      change _ = 0 + 1 + _
      omega
  · exact .inl rfl

theorem Machine.silent_after_clocksToSilence {c : Cfg} (hwf : c.Wf) {n : Nat} {s : State} (h : s.apu.dmc.Idle)
    (hn : s.apu.dmc.clocksToSilence c = n) : (times (clock c) n s).apu.dmc.silenceFlag = true := by
  induction n generalizing s with
  | zero => simp [Dmc.clocksToSilence] at hn
  | succ n ih =>
    obtain hsilent | hnearer := clock_dmc_clocksToSilence hwf h
    · exact (times_clock_of_silent c (clock_dmc_idle c h) hsilent n).1
    · exact ih (clock_dmc_idle c h) (by omega)

/-- Settles O55. The level is the one at which silence is sure to have come. -/
theorem idleDmcFallsSilent : Obligations.IdleDmcFallsSilent := by
  unfold Obligations.IdleDmcFallsSilent
  intro s hwf hbytes hloop
  have hidle : s.apu.dmc.Idle := ⟨hbytes, hloop⟩
  have hsilent := silent_after_clocksToSilence hwf hidle rfl
  refine ⟨(times (clock s.cfg) (s.apu.dmc.clocksToSilence s.cfg) s).apu.dmc.outputLevel, fun n hn =>
    ⟨_, clocks_eq s n, ?_⟩⟩
  obtain ⟨k, rfl⟩ := Nat.exists_eq_add_of_le (show s.apu.dmc.clocksToSilence s.cfg ≤ n from hn)
  have hidle' : (times (clock s.cfg) (s.apu.dmc.clocksToSilence s.cfg) s).apu.dmc.Idle :=
    times_induction (P := fun t : State => t.apu.dmc.Idle) (fun _ => clock_dmc_idle s.cfg) _ hidle
  rw [times_add]
  exact times_clock_of_silent s.cfg hidle' hsilent k

end Sys2Proof
end
